-- ==== Sys2Proof/Word.lean ====
section
/-! DEFINITION. Words and the fixed indexes of the block: bytes, the four links, four hosts, eight drive
positions and two engines (00_scope.md, Fixed figures), and one container for each of them. A container is a
structure with one field per member, so that a state is plain data. -/
namespace Sys2Proof

/-- One byte of a frame or a sector. -/
abbrev Byte := BitVec 8

/-- The string time: 24 bits of milliseconds, which wrap (R173). -/
abbrev Time := BitVec 24

/-- A set of sectors 0 to 31, one bit per member (11_frame_and_record_layouts.md). -/
abbrev SectorSet := BitVec 32

/-- Channel links, lettered A to D. -/
inductive Link where
  | a | b | c | d
  deriving DecidableEq, Repr

/-- Host numbers 1 to 4. -/
inductive HostNo where
  | h1 | h2 | h3 | h4
  deriving DecidableEq, Repr

/-- Drive positions 0 to 7. -/
inductive DriveNo where
  | d0 | d1 | d2 | d3 | d4 | d5 | d6 | d7
  deriving DecidableEq, Repr, Inhabited

/-- Transfer engines E0 and E1. -/
inductive EngineNo where
  | e0 | e1
  deriving DecidableEq, Repr

/-- The links in letter order. -/
def Link.all : List Link := [.a, .b, .c, .d]
/-- The hosts in ascending number. -/
def HostNo.all : List HostNo := [.h1, .h2, .h3, .h4]
/-- The drives in ascending number. -/
def DriveNo.all : List DriveNo := [.d0, .d1, .d2, .d3, .d4, .d5, .d6, .d7]
/-- The engines in ascending number. -/
def EngineNo.all : List EngineNo := [.e0, .e1]

/-- Position of a link in a set of links, 0 to 3. -/
def Link.bit : Link → Nat
  | .a => 0 | .b => 1 | .c => 2 | .d => 3

/-- Position of a host in ascending order, 0 to 3. -/
def HostNo.bit : HostNo → Nat
  | .h1 => 0 | .h2 => 1 | .h3 => 2 | .h4 => 3

/-- The number of a drive position. -/
def DriveNo.toNat : DriveNo → Nat
  | .d0 => 0 | .d1 => 1 | .d2 => 2 | .d3 => 3 | .d4 => 4 | .d5 => 5 | .d6 => 6 | .d7 => 7

/-- The drive position of a number, none above 7. -/
def DriveNo.ofNat? : Nat → Option DriveNo
  | 0 => some .d0 | 1 => some .d1 | 2 => some .d2 | 3 => some .d3
  | 4 => some .d4 | 5 => some .d5 | 6 => some .d6 | 7 => some .d7
  | _ => none

/-- The host of a number 1 to 4. -/
def HostNo.ofNat? : Nat → Option HostNo
  | 1 => some .h1 | 2 => some .h2 | 3 => some .h3 | 4 => some .h4
  | _ => none

/-- One value for each link. -/
structure PerLink (α : Type) where
  a : α
  b : α
  c : α
  d : α
  deriving DecidableEq, Repr

/-- One value for each host number. -/
structure PerHost (α : Type) where
  h1 : α
  h2 : α
  h3 : α
  h4 : α
  deriving DecidableEq, Repr

/-- One value for each drive position. -/
structure PerDrive (α : Type) where
  d0 : α
  d1 : α
  d2 : α
  d3 : α
  d4 : α
  d5 : α
  d6 : α
  d7 : α
  deriving DecidableEq, Repr

/-- One value for each engine. -/
structure PerEngine (α : Type) where
  e0 : α
  e1 : α
  deriving DecidableEq, Repr

/-- The same value for every link. -/
def PerLink.const {α : Type} (x : α) : PerLink α := ⟨x, x, x, x⟩
/-- The same value for every host. -/
def PerHost.const {α : Type} (x : α) : PerHost α := ⟨x, x, x, x⟩
/-- The same value for every drive. -/
def PerDrive.const {α : Type} (x : α) : PerDrive α := ⟨x, x, x, x, x, x, x, x⟩
/-- The same value for both engines. -/
def PerEngine.const {α : Type} (x : α) : PerEngine α := ⟨x, x⟩

/-- The value of a link. -/
def PerLink.get {α : Type} (p : PerLink α) : Link → α
  | .a => p.a | .b => p.b | .c => p.c | .d => p.d

/-- The value of a host. -/
def PerHost.get {α : Type} (p : PerHost α) : HostNo → α
  | .h1 => p.h1 | .h2 => p.h2 | .h3 => p.h3 | .h4 => p.h4

/-- The value of a drive. -/
def PerDrive.get {α : Type} (p : PerDrive α) : DriveNo → α
  | .d0 => p.d0 | .d1 => p.d1 | .d2 => p.d2 | .d3 => p.d3
  | .d4 => p.d4 | .d5 => p.d5 | .d6 => p.d6 | .d7 => p.d7

/-- The value of an engine. -/
def PerEngine.get {α : Type} (p : PerEngine α) : EngineNo → α
  | .e0 => p.e0 | .e1 => p.e1

/-- Replace the value of a link. -/
def PerLink.set {α : Type} (p : PerLink α) (i : Link) (x : α) : PerLink α :=
  match i with
  | .a => { p with a := x } | .b => { p with b := x } | .c => { p with c := x } | .d => { p with d := x }

/-- Replace the value of a host. -/
def PerHost.set {α : Type} (p : PerHost α) (i : HostNo) (x : α) : PerHost α :=
  match i with
  | .h1 => { p with h1 := x } | .h2 => { p with h2 := x } | .h3 => { p with h3 := x } | .h4 => { p with h4 := x }

/-- Replace the value of a drive. -/
def PerDrive.set {α : Type} (p : PerDrive α) (i : DriveNo) (x : α) : PerDrive α :=
  match i with
  | .d0 => { p with d0 := x } | .d1 => { p with d1 := x } | .d2 => { p with d2 := x } | .d3 => { p with d3 := x }
  | .d4 => { p with d4 := x } | .d5 => { p with d5 := x } | .d6 => { p with d6 := x } | .d7 => { p with d7 := x }

/-- Replace the value of an engine. -/
def PerEngine.set {α : Type} (p : PerEngine α) (i : EngineNo) (x : α) : PerEngine α :=
  match i with
  | .e0 => { p with e0 := x } | .e1 => { p with e1 := x }

/-- The same change for every drive. -/
def PerDrive.map {α β : Type} (f : α → β) (p : PerDrive α) : PerDrive β :=
  ⟨f p.d0, f p.d1, f p.d2, f p.d3, f p.d4, f p.d5, f p.d6, f p.d7⟩

/-- The same change for every link. -/
def PerLink.map {α β : Type} (f : α → β) (p : PerLink α) : PerLink β := ⟨f p.a, f p.b, f p.c, f p.d⟩

/-- The same change for every host. -/
def PerHost.map {α β : Type} (f : α → β) (p : PerHost α) : PerHost β := ⟨f p.h1, f p.h2, f p.h3, f p.h4⟩

/-- A count that stays at its limit (00_scope.md, Arithmetic). -/
def saturate (limit n : Nat) : Nat := if n ≤ limit then n else limit

end Sys2Proof
end

