-- ==== Sys2Proof/Syntax.lean ====
section
/-! DEFINITION. The commands of the block: one constructor of `Instr` for each row of spec/opcode_table.json,
with its operands. Orders carry the link they arrive on and the fields of their 40-byte ORDER frame
(11_frame_and_record_layouts.md, section 11.1); the order code is the constructor's. -/
namespace Sys2Proof

/-- The type code of a capability record (R6): D40, D80, or a code the controller does not know. -/
inductive TypeCode where
  | d40 | d80 | unknown
  deriving DecidableEq, Repr

/-- An ORDER frame less its kind byte and order code: bytes 1 and 3 to 39 of section 11.1. -/
structure OrderFrame where
  /-- Length of the frame as taken, in bytes; 40 in a frame of the right length (R175). -/
  size : Nat := 40
  /-- Byte 1. -/
  tag : Byte := 0
  /-- Byte 3. -/
  drive : Byte := 0
  /-- Byte 4: bit 0 continue-chain, bit 1 clear option. -/
  flags : Byte := 0
  /-- Bytes 5 and 6. -/
  cylinder : BitVec 16 := 0
  /-- Byte 7. -/
  head : Byte := 0
  /-- Byte 8. -/
  sector : Byte := 0
  /-- Byte 9. -/
  count : Byte := 0
  /-- Bytes 10 and 11. -/
  offset : BitVec 16 := 0
  /-- Bytes 12 and 13. -/
  length : BitVec 16 := 0
  /-- Byte 14. -/
  form : Byte := 0
  /-- Byte 15: number of DATA frames to follow. -/
  frames : Byte := 0
  /-- Bytes 16 to 39: the order image. -/
  image : List Byte := List.replicate 24 0
  deriving DecidableEq, Repr

/-- A burst of errors as the engine finds it (R90 b): the bit position where it starts, counted over the data
bytes and then the check field, most significant bit of each byte first, and up to 11 bits from there. -/
structure Burst where
  start : Nat
  pattern : BitVec 11
  deriving DecidableEq, Repr

/-- The commands, one for each row of the opcode table. -/
inductive Instr where
  /-- Links with a signal and positions where a drive answers the poll (R173). -/
  | powerOn (signals : PerLink Bool) (answering : PerDrive Bool)
  | linkUp (l : Link)
  | linkDown (l : Link)
  | reset (l : Link)
  | orderOnBusyLink (l : Link) (tag : Byte)
  | unknownOrder (l : Link) (code : Byte) (f : OrderFrame)
  | frameDiscarded (l : Link) (bytes : List Byte)
  | read (l : Link) (f : OrderFrame)
  | write (l : Link) (f : OrderFrame)
  | verify (l : Link) (f : OrderFrame)
  | update (l : Link) (f : OrderFrame)
  | reassignNew (l : Link) (f : OrderFrame)
  | reassignFill (l : Link) (f : OrderFrame)
  | claim (l : Link) (f : OrderFrame)
  | claimWithNotice (l : Link) (f : OrderFrame)
  | yield (l : Link) (f : OrderFrame)
  | readCheckRecord (l : Link) (f : OrderFrame)
  | beginLoad (l : Link) (f : OrderFrame)
  | loadSegment (l : Link) (f : OrderFrame)
  | endLoad (l : Link) (f : OrderFrame)
  | abandonLoad (l : Link) (f : OrderFrame)
  | readMap (l : Link) (f : OrderFrame)
  | readSnapshot (l : Link) (f : OrderFrame)
  | readHistory (l : Link) (f : OrderFrame)
  | readHistoryClear (l : Link) (f : OrderFrame)
  | readSettings (l : Link) (f : OrderFrame)
  | editHostSet (l : Link) (f : OrderFrame)
  | editHostRemove (l : Link) (f : OrderFrame)
  | editFence (l : Link) (f : OrderFrame)
  | editProfile (l : Link) (f : OrderFrame)
  | editSettings (l : Link) (f : OrderFrame)
  | editMapAdd (l : Link) (f : OrderFrame)
  | editMapRemove (l : Link) (f : OrderFrame)
  | editMapRetire (l : Link) (f : OrderFrame)
  | editMapRebind (l : Link) (f : OrderFrame)
  | quiesce (l : Link) (f : OrderFrame)
  | resume (l : Link) (f : OrderFrame)
  | stringReset (l : Link) (f : OrderFrame)
  | breakClaim (l : Link) (f : OrderFrame)
  | driveOffline (l : Link) (f : OrderFrame)
  /-- `faultLine` is the level of the drive's fault line, sampled when the order is taken (R15 b, R19 a). -/
  | driveOnline (l : Link) (f : OrderFrame) (faultLine : Bool)
  | imageDataTaken (l : Link) (tag : Byte) (index : BitVec 16) (data : List Byte)
  | writeDataTaken (l : Link) (tag : Byte) (index : BitVec 16) (data : List Byte)
  | answerAccepted (l : Link)
  | readoutDataAccepted (l : Link)
  | transferStartAccepted (l : Link)
  | readDataAccepted (l : Link)
  | reportAccepted (l : Link)
  | linkBusyAccepted (l : Link)
  | stallTimeout (l : Link)
  | orphanTimeout (d : DriveNo)
  | patrolTimerExpiry (d : DriveNo)
  | seekTimeout (d : DriveNo)
  | orientationTimeout (d : DriveNo)
  | driveAnswersPoll (d : DriveNo)
  | driveLost (d : DriveNo)
  | capability (d : DriveNo) (code : TypeCode) (serial : Fin 1000000)
  | index (d : DriveNo)
  | slotAdvance (d : DriveNo)
  | seekComplete (d : DriveNo)
  | seekCheck (d : DriveNo)
  | recalComplete (d : DriveNo)
  | recalFailed (d : DriveNo)
  | fault (d : DriveNo)
  | orientationPoint (d : DriveNo)
  | sectorStart (e : EngineNo)
  /-- The data bytes and check field as read, and the single burst the engine finds, if any (R90). -/
  | sectorReadEnd (e : EngineNo) (data : List Byte) (check : BitVec 32) (burst : Option Burst)
  | sectorWriteEnd (e : EngineNo)
  deriving DecidableEq, Repr

end Sys2Proof
end

