-- ==== Sys2Proof/WellFormed.lean ====
section
/-! DEFINITION. Which commands are well formed: an operand that a frame or a drive can carry. A FAULTY field
(a count of 0, a head of 12) is no ill-formed command: acceptance refuses it FORMAT or ADDRESS (R29, R176). -/
namespace Sys2Proof

/-- The order image is bytes 16 to 39 of the frame. -/
def OrderFrame.wf (f : OrderFrame) : Bool := f.image.length == 24

/-- A sector, or the data bytes of a DATA frame of 516 bytes (section 11.1). -/
def sectorWf (data : List Byte) : Bool := data.length == 512

/-- A burst has an error in its first bit and lies within the 4128 bits of a sector and its check field (R90). -/
def Burst.wf (b : Burst) : Bool :=
  b.pattern.getLsbD 0 && (List.range 11).all (fun j => !b.pattern.getLsbD j || decide (b.start + j < 4128))

/-- The kind byte and the length decide what a frame is (R175). A frame that is discarded whatever the state is one
of a controller kind, of an unknown kind, or a DATA or RESET frame of a wrong length; a DATA frame of 516 bytes is
discarded when no exchange expects it (R22 c). An ORDER, or a RESET of one byte, is never discarded. -/
def discardable : List Byte → Bool
  | [] => true
  | k :: rest => k != 1 && !(k == 6 && rest.isEmpty)

/-- The well-formedness of a command's operands. -/
def Instr.wf : Instr → Bool
  | .powerOn _ _ => true
  | .linkUp _ | .linkDown _ | .reset _ => true
  | .orderOnBusyLink _ _ => true
  | .unknownOrder _ code f => (code == 0 || decide (28 < code.toNat)) && f.wf
  | .frameDiscarded _ bytes => discardable bytes
  | .read _ f | .write _ f | .verify _ f | .update _ f => f.wf
  | .reassignNew _ f => f.wf && f.form != 2
  | .reassignFill _ f => f.wf && f.form == 2
  | .claim _ f | .claimWithNotice _ f | .yield _ f | .readCheckRecord _ f => f.wf
  | .beginLoad _ f | .loadSegment _ f | .endLoad _ f | .abandonLoad _ f => f.wf
  | .readMap _ f | .readSnapshot _ f | .readSettings _ f => f.wf
  | .readHistory _ f => f.wf && !f.flags.getLsbD 1
  | .readHistoryClear _ f => f.wf && f.flags.getLsbD 1
  | .editHostSet _ f => f.wf && f.form != 2
  | .editHostRemove _ f => f.wf && f.form == 2
  | .editFence _ f | .editProfile _ f | .editSettings _ f => f.wf
  | .editMapAdd _ f => f.wf && f.form != 2 && f.form != 3 && f.form != 4
  | .editMapRemove _ f => f.wf && f.form == 2
  | .editMapRetire _ f => f.wf && f.form == 3
  | .editMapRebind _ f => f.wf && f.form == 4
  | .quiesce _ f | .resume _ f | .stringReset _ f | .breakClaim _ f | .driveOffline _ f => f.wf
  | .driveOnline _ f _ => f.wf
  | .imageDataTaken _ _ _ data | .writeDataTaken _ _ _ data => sectorWf data
  | .answerAccepted _ | .readoutDataAccepted _ | .transferStartAccepted _ | .readDataAccepted _
  | .reportAccepted _ | .linkBusyAccepted _ => true
  | .stallTimeout _ | .orphanTimeout _ | .patrolTimerExpiry _ | .seekTimeout _ | .orientationTimeout _ => true
  | .driveAnswersPoll _ | .driveLost _ | .capability _ _ _ | .index _ | .slotAdvance _ | .seekComplete _
  | .seekCheck _ | .recalComplete _ | .recalFailed _ | .fault _ => true
  | .orientationPoint _ | .sectorStart _ | .sectorWriteEnd _ => true
  | .sectorReadEnd _ data _ burst => sectorWf data && (match burst with | none => true | some b => b.wf)

end Sys2Proof
end

