-- ==== Sys2Proof/Decode.lean ====
section
/-! DEFINITION. Decoding. The opcode table gives no bits to any command, so `decodeTableWord` answers none. An ORDER
frame is decoded from its bytes by section 11.1 (R175, R176), and encoded. -/
namespace Sys2Proof

/-- The command a word of the opcode table spells: none, since no row has bits. -/
def decodeTableWord (_nbits _w : Nat) : Option Instr := none

/-- Two bytes of a frame, most significant first (section 11.1). -/
def wordOf (hi lo : Byte) : BitVec 16 := hi ++ lo

/-- The most significant byte of a two-byte field. -/
def highByte (w : BitVec 16) : Byte := w.extractLsb' 8 8
/-- The least significant byte of a two-byte field. -/
def lowByte (w : BitVec 16) : Byte := w.extractLsb' 0 8

/-- The order frame of the bytes of an ORDER. Its length refuses a frame cut short (R175); the bytes that it lacks, its tag among
them where it ends before byte 1, read as zeros, of which the spec says nothing: the model's choice (log entry 9). -/
def frameOf (bytes : List Byte) : OrderFrame :=
  let b := fun i => bytes.getD i 0
  { size := bytes.length, tag := b 1, drive := b 3, flags := b 4, cylinder := wordOf (b 5) (b 6), head := b 7,
    sector := b 8, count := b 9, offset := wordOf (b 10) (b 11), length := wordOf (b 12) (b 13), form := b 14,
    frames := b 15, image := ((bytes.drop 16) ++ List.replicate 24 0).take 24 }

/-- The order of a code with its frame (section 11.1: codes 1 to 28 in the order of the table of section 2.4; byte 14
tells REASSIGN, EDIT HOST and EDIT MAP forms, flag bit 1 the clear option). Any other code is an unknown order. -/
def orderOf (l : Link) (faultLine : Bool) (code : Byte) (f : OrderFrame) : Instr :=
  match code.toNat with
  | 1 => .read l f
  | 2 => .write l f
  | 3 => .verify l f
  | 4 => .update l f
  | 5 => if f.form = 2 then .reassignFill l f else .reassignNew l f
  | 6 => .claim l f
  | 7 => .claimWithNotice l f
  | 8 => .yield l f
  | 9 => .readCheckRecord l f
  | 10 => .beginLoad l f
  | 11 => .loadSegment l f
  | 12 => .endLoad l f
  | 13 => .abandonLoad l f
  | 14 => .readMap l f
  | 15 => .readSnapshot l f
  | 16 => if f.flags.getLsbD 1 then .readHistoryClear l f else .readHistory l f
  | 17 => .readSettings l f
  | 18 => if f.form = 2 then .editHostRemove l f else .editHostSet l f
  | 19 => .editFence l f
  | 20 => .editProfile l f
  | 21 => .editSettings l f
  | 22 => if f.form = 2 then .editMapRemove l f else if f.form = 3 then .editMapRetire l f
    else if f.form = 4 then .editMapRebind l f else .editMapAdd l f
  | 23 => .quiesce l f
  | 24 => .resume l f
  | 25 => .stringReset l f
  | 26 => .breakClaim l f
  | 27 => .driveOffline l f
  | 28 => .driveOnline l f faultLine
  | _ => .unknownOrder l code f

/-- The order a frame taken on a link carries: its kind byte is 1 (R175). The level of the drive's fault line, which a
DRIVE ONLINE samples, comes beside the frame (log entry 6). -/
def decodeOrder (l : Link) (faultLine : Bool) (bytes : List Byte) : Option Instr :=
  match bytes with
  | k :: _ => if k = 1 then some (orderOf l faultLine (bytes.getD 2 0) (frameOf bytes)) else none
  | [] => none

/-- The code and the frame of a command that is an order. -/
def Instr.order? : Instr → Option (Link × Byte × OrderFrame)
  | .unknownOrder l code f => some (l, code, f)
  | .read l f => some (l, 1, f)
  | .write l f => some (l, 2, f)
  | .verify l f => some (l, 3, f)
  | .update l f => some (l, 4, f)
  | .reassignNew l f => some (l, 5, f)
  | .reassignFill l f => some (l, 5, f)
  | .claim l f => some (l, 6, f)
  | .claimWithNotice l f => some (l, 7, f)
  | .yield l f => some (l, 8, f)
  | .readCheckRecord l f => some (l, 9, f)
  | .beginLoad l f => some (l, 10, f)
  | .loadSegment l f => some (l, 11, f)
  | .endLoad l f => some (l, 12, f)
  | .abandonLoad l f => some (l, 13, f)
  | .readMap l f => some (l, 14, f)
  | .readSnapshot l f => some (l, 15, f)
  | .readHistory l f => some (l, 16, f)
  | .readHistoryClear l f => some (l, 16, f)
  | .readSettings l f => some (l, 17, f)
  | .editHostSet l f => some (l, 18, f)
  | .editHostRemove l f => some (l, 18, f)
  | .editFence l f => some (l, 19, f)
  | .editProfile l f => some (l, 20, f)
  | .editSettings l f => some (l, 21, f)
  | .editMapAdd l f => some (l, 22, f)
  | .editMapRemove l f => some (l, 22, f)
  | .editMapRetire l f => some (l, 22, f)
  | .editMapRebind l f => some (l, 22, f)
  | .quiesce l f => some (l, 23, f)
  | .resume l f => some (l, 24, f)
  | .stringReset l f => some (l, 25, f)
  | .breakClaim l f => some (l, 26, f)
  | .driveOffline l f => some (l, 27, f)
  | .driveOnline l f _ => some (l, 28, f)
  | .powerOn _ _ | .linkUp _ | .linkDown _ | .reset _ | .orderOnBusyLink _ _ | .frameDiscarded _ _
  | .imageDataTaken _ _ _ _ | .writeDataTaken _ _ _ _ | .answerAccepted _ | .readoutDataAccepted _
  | .transferStartAccepted _ | .readDataAccepted _ | .reportAccepted _ | .linkBusyAccepted _ | .stallTimeout _
  | .orphanTimeout _ | .patrolTimerExpiry _ | .seekTimeout _ | .orientationTimeout _ | .driveAnswersPoll _
  | .driveLost _ | .capability _ _ _ | .index _ | .slotAdvance _ | .seekComplete _ | .seekCheck _ | .recalComplete _
  | .recalFailed _ | .fault _ | .orientationPoint _ | .sectorStart _ | .sectorReadEnd _ _ _ _ | .sectorWriteEnd _ => none

/-- The level of the fault line a command carries. -/
def Instr.faultLine : Instr → Bool
  | .driveOnline _ _ b => b
  | _ => false

/-- The 40 bytes of an ORDER frame (section 11.1). -/
def encodeFrame (code : Byte) (f : OrderFrame) : List Byte :=
  [1, f.tag, code, f.drive, f.flags, highByte f.cylinder, lowByte f.cylinder, f.head, f.sector, f.count,
   highByte f.offset, lowByte f.offset, highByte f.length, lowByte f.length, f.form, f.frames] ++ f.image

end Sys2Proof
end

