-- ==== Sys2Proof/Config.lean ====
section
/-! DEFINITION. What the manual leaves open (opaque constants, of which nothing can be proved), and the fixed
figures of 00_scope.md that the rules name as numbers. -/
namespace Sys2Proof.Config

/-- The check field computed over the 512 data bytes of a sector. The manual gives its width (R1: 32 bits) and
what it is used for (R90), never the code. Log entry 3. Safe: a free value. -/
opaque checkField : List Byte → BitVec 32

/-- Which of several bursts that each explain a reading the engine corrects, by its place among them (R90 b says that a
CORRECTABLE reading has one, not which when there are more). Log entry 3. Safe: a free value. -/
opaque burstChoice : List Byte → BitVec 32 → Nat

/-- The drive whose selection is made first when the track buffer is released and several drives have a
reassignment waiting (R84 d: "the first reassignment to be chosen takes the buffer"; no order is given).
Log entry 7. Safe: a free value. -/
opaque firstDrive : Nat → DriveNo

/-- The 512 data bytes of the one DATA frame of READ SETTINGS when the image of R171 is longer than a frame:
R177 gives one frame and no rule says what it then holds. Log entry 8. Safe: a free value. -/
opaque settingsFrame : List Byte → List Byte

/-- Requests a drive queue holds (R64). -/
def queueLimit : Nat := 16
/-- Frames a report queue holds (R152). -/
def reportLimit : Nat := 24
/-- Slots of a report queue that are reserved or hold completions (R153). -/
def completionLimit : Nat := 16
/-- Entries of the error history (R137). -/
def historyLimit : Nat := 64
/-- Seek timer, ms (R10). -/
def seekTimeout : Nat := 120
/-- Orientation timer, ms (R14). -/
def orientTimeout : Nat := 50
/-- Members of a chain (R33). -/
def chainLimit : Nat := 8
/-- Hosts on a waiting list (R50). -/
def waitingLimit : Nat := 3
/-- Seek checks that end a request (R12). -/
def seekCheckLimit : Nat := 3

end Sys2Proof.Config
end

