-- ==== Sys2Proof/Machine/State.lean ====
section
/-! DEFINITION. The state of the Wendoss 716: everything the manual gives the controller, as plain data, with the
queue of waiting commands. INVENTORY.md names the rule of every field. -/
namespace Sys2Proof.Machine

/-- The two drive types of 00_scope.md, Geometry. -/
inductive DriveType where
  | d40 | d80
  deriving DecidableEq, Repr

/-- A track: cylinder and head. -/
structure Track where
  cyl : Nat
  head : Nat
  deriving DecidableEq, Repr

/-- A logical sector: cylinder, head and sector. -/
structure Addr where
  cyl : Nat
  head : Nat
  sector : Nat
  deriving DecidableEq, Repr

/-- Controller modes (R160). -/
inductive Mode where
  | loading | online | draining | quiesced
  deriving DecidableEq, Repr

/-! ### Drives -/

/-- The ten drive states (01_drives, section 1.3). -/
inductive DriveState where
  | absent | starting | incompatible | recalibrating | ready | moving | orienting | transferring | faulted | offline
  deriving DecidableEq, Repr

/-- Reported conditions (R4). -/
inductive Condition where
  | ready | notReady | faulted | offline | absent | incompatible
  deriving DecidableEq, Repr

/-- Incompatibility reasons (01_drives, section 1.3). -/
inductive Reason where
  | unknownType | serial | type
  deriving DecidableEq, Repr

/-- Fault causes (01_drives, section 1.3). -/
inductive Cause where
  | faultLine | recalFailed | orientTimeout | unsolicitedSeekCheck
  deriving DecidableEq, Repr

/-- A capability record (R6). -/
structure Capability where
  code : TypeCode
  serial : Fin 1000000
  deriving DecidableEq, Repr

/-- What a sequencer sends on the string bus (01_drives, section 1.2), with the writes of sectors (R1). -/
inductive BusOrder where
  | seek (t : Track)
  | recalibrate
  | stop
  | spinUp
  | writeSector (t : Track) (sector : Nat) (data : List Byte) (check : BitVec 32)
  deriving DecidableEq, Repr

/-! ### Requests -/

/-- Request kinds (R65). -/
inductive ReqKind where
  | read | write | verify | update | reassign | patrol | autoReassign
  deriving DecidableEq, Repr

/-- Reassignment forms (R28 c). -/
inductive Form where
  | new | fill
  deriving DecidableEq, Repr

/-- Request states (R66). -/
inductive ReqState where
  | queued | bound | held | positioning | orienting | transferring
  deriving DecidableEq, Repr

/-- Tag, host and link of acceptance of a host request (R65); internal requests have none. -/
structure Issuer where
  tag : Byte
  host : HostNo
  link : Link
  deriving DecidableEq, Repr

/-- Chain identity and position 1 to 8 (R65). -/
structure ChainPos where
  id : Nat
  pos : Nat
  deriving DecidableEq, Repr

/-- A request record (R65). `id` is the model's own identity of the request; `markC`, `markT` are the recovery marks
of R85 and R103, each with the first sector recovered under its class; `marked` is the mark for removal of R129 e and
R41 d; `histKey` is the physical track of the history entry an AUTO-REASSIGN was asked for (R141). -/
structure Request where
  id : Nat
  issuer : Option Issuer
  kind : ReqKind
  start : Addr
  count : Nat
  offset : Nat := 0
  length : Nat := 0
  form : Form := .new
  done : Nat := 0
  chain : Option ChainPos := none
  passes : Nat := 0
  misses : Nat := 0
  seekChecks : Nat := 0
  state : ReqState := .queued
  markC : Option Addr := none
  markT : Option Addr := none
  marked : Bool := false
  histKey : Option Track := none
  deriving DecidableEq, Repr

/-! ### Spare maps -/

/-- Entry states with the validity set where the manual gives one (R107, R108). -/
inductive EntryState where
  | active
  | void (valid : SectorSet)
  | copying (valid : SectorSet)
  deriving DecidableEq, Repr

/-- Origins (R109). -/
inductive Origin where
  | loaded | host | auto
  deriving DecidableEq, Repr

/-- A spare map entry (R107). -/
structure Entry where
  primary : Track
  alt : Nat
  state : EntryState
  retained : List Nat := []
  origin : Origin
  generation : Nat := 0
  deriving DecidableEq, Repr

/-- States of an alternate (R110). -/
inductive AltState where
  | free | assigned | retired
  deriving DecidableEq, Repr

/-- A spare map with its pool (R106, R110): the binding with its declared type, the entries in sort order of their
primary tracks, and the states of alternates 0 to 95. -/
structure SpareMap where
  bound : Option (Fin 1000000 × DriveType)
  entries : List Entry
  pool : List AltState
  deriving DecidableEq, Repr

/-- Unbound, no entries, every alternate FREE (R106). -/
def SpareMap.empty : SpareMap := ⟨none, [], List.replicate 96 .free⟩

/-! ### Claims, patrol, drive positions -/

/-- The claim state of a position (R50); the orphan timer holds the milliseconds left. -/
structure Claim where
  holder : Option HostNo
  waiting : List HostNo
  orphan : Option Nat
  deriving DecidableEq, Repr

/-- Holder none, waiting list empty, orphan timer stopped (R50). -/
def Claim.clear : Claim := ⟨none, [], none⟩

/-- The patrol timer (R144), milliseconds left. -/
inductive PatrolTimer where
  | stopped
  | running (left : Nat)
  | expired
  deriving DecidableEq, Repr

/-- A deferred AUTO-REASSIGN (R142): its logical track, and the physical track of the history entry that asked. -/
structure Deferred where
  track : Track
  key : Track
  deriving DecidableEq, Repr

/-- A drive position: sequencer, queue, claim, spare map and patrol. `pointMet` is the model's own mark that the present
arrival at the arm holder's orientation point has been dealt with (R78; log entry 14); `selEvent` and `patrolEvent` are its
own marks, raised and consumed within a command (R68, R145); `sent` is its own trace of the string bus. -/
structure Drive where
  state : DriveState
  pos : Option Track
  slot : Option Nat
  cap : Option Capability
  reason : Option Reason
  cause : Option Cause
  seekTarget : Option Track
  seekTimer : Option Nat
  orientTimer : Option Nat
  recalDue : Bool
  queue : List Request
  lastHost : Option HostNo
  runLength : Nat
  successor : Option Nat
  armTarget : Option Track
  pointMet : Bool
  claim : Claim
  map : SpareMap
  deferred : List Deferred
  cursor : Track
  patrolTimer : PatrolTimer
  patrolDue : Bool
  selEvent : Bool
  patrolEvent : Bool
  sent : List BusOrder
  deriving DecidableEq, Repr

/-- A position at power-on before its probe answers (R5, R173). -/
def Drive.initial : Drive :=
  { state := .absent, pos := none, slot := none, cap := none, reason := none, cause := none,
    seekTarget := none, seekTimer := none, orientTimer := none, recalDue := false,
    queue := [], lastHost := none, runLength := 0, successor := none, armTarget := none, pointMet := false,
    claim := Claim.clear, map := SpareMap.empty, deferred := [], cursor := ⟨0, 0⟩,
    patrolTimer := .stopped, patrolDue := false, selEvent := false, patrolEvent := false, sent := [] }

/-! ### Reports and check records -/

/-- Completion statuses in the order of R103's table. -/
inductive Status where
  | complete | completeRecovered | dataCheck | voidSector | seekCheck | driveFault | driveOffline | noDrive
  | chainCancelled | linkStall | linkLost | linkReset | reassigned | noAlternate | state
  deriving DecidableEq, Repr

/-- Recovery classes: C by correction, T by retry. -/
inductive RecClass where
  | c | t
  deriving DecidableEq, Repr

/-- Causes of CLAIM-GRANTED and CLAIM-DROPPED (R54). -/
inductive ClaimCause where
  | yield | orphan | break | removed
  deriving DecidableEq, Repr

/-- Causes of VOID-TRACK (R133, R135). -/
inductive VoidCause where
  | copyEnd | abort
  deriving DecidableEq, Repr

/-- Causes of STRING-RESET (R159). -/
inductive ResetCause where
  | reset | load
  deriving DecidableEq, Repr

/-- A completion (R102, R103, R132): class for COMPLETE-RECOVERED, void count for REASSIGNED. -/
structure Completion where
  tag : Byte
  drive : DriveNo
  status : Status
  cls : Option RecClass := none
  voids : Option Nat := none
  done : Nat
  addr : Option Addr
  deriving DecidableEq, Repr

/-- What a REPORT frame carries (section 11.1, record kinds 1 to 12). -/
inductive Record where
  | completion (c : Completion)
  | recovered (tag : Byte) (drive : DriveNo) (cls : RecClass) (addr : Addr) (physical : Track)
  | driveState (drive : DriveNo) (condition : Condition)
  | spared (drive : DriveNo) (logical : Track) (form : Form) (alt : Nat) (origin : Origin) (generation voids : Nat)
  | voidTrack (drive : DriveNo) (logical : Track) (alt voids : Nat) (cause : VoidCause)
  | suspect (drive : DriveNo) (physical : Track) (logical : Option Track) (sector count : Nat)
  | releaseRequested (drive : DriveNo) (waiting : HostNo)
  | claimGranted (drive : DriveNo) (previous : HostNo) (cause : ClaimCause)
  | claimDropped (drive : DriveNo) (new : Option HostNo) (cause : ClaimCause)
  | mode (m : Mode)
  | stringReset (cause : ResetCause)
  | gap (lost : Nat)
  deriving DecidableEq, Repr

/-- A REPORT frame in a queue: its record and the string time of the event (R152). -/
structure Report where
  time : Time
  record : Record
  deriving DecidableEq, Repr

/-- Codes of a check record (R148). -/
inductive CheckCode where
  | completion (status : Status) (cls : Option RecClass)
  | spared (form : Form)
  | voidTrack (cause : VoidCause)
  | suspect
  | driveState (condition : Condition)
  deriving DecidableEq, Repr

/-- A check record (R147). -/
structure CheckRecord where
  pending : Bool
  code : Option CheckCode
  drive : Option DriveNo
  logical : Option Track
  sector : Option Nat
  physical : Option Track
  time : Option Time
  overwrites : Nat
  deriving DecidableEq, Repr

/-- A clear record (R147). -/
def CheckRecord.clear : CheckRecord := ⟨false, none, none, none, none, none, none, 0⟩

/-- A host table entry (R43); sets of links and drives one bit per member. -/
structure HostEntry where
  links : BitVec 4
  authority : Bool
  enableC : Bool
  enableT : Bool
  enableS : Bool
  enableE : Bool
  inhibit : Bool
  watch : BitVec 8
  deriving DecidableEq, Repr

/-- A host in the table: its entry, report queue and check record (R43, R147, R152). -/
structure HostState where
  entry : HostEntry
  queue : List Report
  reserved : Nat
  lost : Nat
  reportLink : Option Link
  check : CheckRecord
  deriving DecidableEq, Repr

/-- A host as its entry enters the table (R152, R147). -/
def HostState.fresh (e : HostEntry) : HostState := ⟨e, [], 0, 0, none, CheckRecord.clear⟩

/-- Extent access (R60). -/
inductive Access where
  | read | write | readWrite
  deriving DecidableEq, Repr

/-- A fence extent (R60). -/
structure Extent where
  low : Nat
  high : Nat
  access : Access
  deriving DecidableEq, Repr

/-! ### Settings and tables -/

/-- Rounding (R74). -/
inductive Rounding where
  | chop | round
  deriving DecidableEq, Repr

/-- ECC modes (R91). -/
inductive EccMode where
  | off | detect | correct
  deriving DecidableEq, Repr

/-- The four settings of a drive position (R174). -/
structure DriveSettings where
  ecc : EccMode
  retries : Nat
  autoSpare : Bool
  patrol : Bool
  deriving DecidableEq, Repr

/-- The string settings (R174). -/
structure Settings where
  lead : Nat
  aging : Nat
  forced : Nat
  rotation : Nat
  missLimit : Nat
  rounding : Rounding
  stallLimit : Nat
  orphanLimit : Nat
  spareThreshold : Nat
  patrolInterval : Nat
  perDrive : PerDrive DriveSettings
  deriving DecidableEq, Repr

/-- The defaults of R174. -/
def Settings.default : Settings :=
  { lead := 2, aging := 16, forced := 8, rotation := 4, missLimit := 3, rounding := .round, stallLimit := 40,
    orphanLimit := 30, spareThreshold := 8, patrolInterval := 0,
    perDrive := PerDrive.const ⟨.correct, 7, false, false⟩ }

/-- A seek profile (R72, R74): points (D0, T0) to (D7, T7) and the head-switch time H. -/
structure Profile where
  points : List (Nat × Nat)
  headSwitch : Nat
  deriving DecidableEq, Repr

/-- Keys of staged segments (R164). -/
inductive SegKey where
  | settings
  | host (h : HostNo)
  | fence (h : HostNo) (d : DriveNo)
  | profile (t : DriveType)
  | map (d : DriveNo)
  deriving DecidableEq, Repr

/-- Images of segments, read from their bytes (section 11.2). -/
inductive SegImage where
  | settings (x : Settings)
  | host (e : HostEntry)
  | fence (xs : List Extent)
  | profile (p : Profile)
  | map (m : SpareMap)
  deriving DecidableEq, Repr

/-- A staged segment (R164). -/
structure Segment where
  key : SegKey
  index : Nat
  image : SegImage
  deriving DecidableEq, Repr

/-- The open staging area (R164). -/
structure Staging where
  owner : Link
  segments : List Segment
  deriving DecidableEq, Repr

/-- An error history entry (R137). -/
structure HistEntry where
  drive : DriveNo
  track : Track
  corrected : Nat
  retried : Nat
  unrecovered : Nat
  lastSector : Nat
  firstSeen : Time
  lastSeen : Time
  sparePending : Bool
  suspect : Bool
  deriving DecidableEq, Repr

/-! ### Links -/

/-- Refusal codes in the order of section 11.1. -/
inductive RefusalCode where
  | unknownOrder | format | tagInUse | notLoaded | quiesced | notQuiesced | unassignedLink | authority | noDrive
  | address | claimed | fence | queueFull | reportFull | linkBusy | loadBusy | noLoad | loadInvalid | editInvalid
  | busyTrack | notHeld
  deriving DecidableEq, Repr

/-- Results of an ANSWER (section 11.1). -/
inductive AnswerResult where
  | accepted
  | refused (code : RefusalCode)
  | complete
  | claimedWaiting
  deriving DecidableEq, Repr

/-- An ANSWER frame: result, detail (bytes 4 to 7), number of DATA frames that follow, result image. -/
structure Answer where
  tag : Byte
  result : AnswerResult
  detail : List Byte := [0, 0, 0, 0]
  frames : Nat := 0
  image : List Byte := []
  deriving DecidableEq, Repr

/-- Frames the controller offers within an exchange (02_links, section 2.2). -/
inductive Frame where
  | answer (x : Answer)
  | data (tag : Byte) (index : Nat) (bytes : List Byte)
  | transferStart (tag : Byte) (first : Addr) (index : Nat)
  | report (r : Report)
  deriving DecidableEq, Repr

/-- The controller frame awaiting frame acceptance: one of the exchange, or a LINK-BUSY answer (R22, R24). -/
inductive Offered where
  | frame (f : Frame)
  | linkBusy (tag : Byte)
  deriving DecidableEq, Repr

/-- The order that awaits its table image (R25 d). -/
inductive ImageOrder where
  | loadSegment (key : SegKey)
  | editProfile (t : DriveType)
  | editSettings
  deriving DecidableEq, Repr

/-- How far an order exchange has gone: awaiting DATA frames of an image, or sending its ANSWER and read-out. -/
inductive OrderStage where
  | awaitImage (order : ImageOrder) (expected : Nat) (taken : List (List Byte))
  | answering
  deriving DecidableEq, Repr

/-- An order exchange (R25); `holdsTag` while the tag of an immediate order is in use (R32 b). -/
structure OrderExchange where
  tag : Byte
  host : Option HostNo
  holdsTag : Bool
  stage : OrderStage
  deriving DecidableEq, Repr

/-- The exchange in progress on a link (R23); `writes` tells a transfer that takes DATA frames (WRITE, UPDATE). -/
inductive Exchange where
  | order (x : OrderExchange)
  | transfer (e : EngineNo) (tag : Byte) (writes : Bool)
  | report (h : HostNo)
  deriving DecidableEq, Repr

/-- An open chain (R33). -/
structure OpenChain where
  id : Nat
  drive : DriveNo
  members : Nat
  deriving DecidableEq, Repr

/-- The waits a) to g) of R36. -/
inductive Wait where
  | chain | readFrame | writeFrame | image | answer | report | linkBusy
  deriving DecidableEq, Repr

/-- The stall timer while it runs: the wait it bounds and the milliseconds left (R36). -/
structure StallTimer where
  wait : Wait
  left : Nat
  deriving DecidableEq, Repr

/-- A link port (02_links, opening and section 2.1). -/
structure LinkPort where
  up : Bool
  exchange : Option Exchange
  chain : Option OpenChain
  stall : Option StallTimer
  due : Option Wait
  offered : Option Offered
  toSend : List Frame
  busyTags : List Byte
  deriving DecidableEq, Repr

/-- A port with no exchange, no chain and its stall timer stopped (R21, R40). -/
def LinkPort.idle (up : Bool) : LinkPort := ⟨up, none, none, none, none, none, [], []⟩

/-! ### Engines and the track buffer -/

/-- A sector buffer (R85). -/
inductive Buffer where
  | empty
  | filling (sector : Nat)
  | full (sector : Nat) (data : List Byte)
  deriving DecidableEq, Repr

/-- Engine phases (R85). -/
inductive Phase where
  | idle | awaiting | streaming | retryRevolution | lostRevolution | mergeRevolution | flushing
  deriving DecidableEq, Repr

/-- What ends the engine's work: the failing sector (R101), a stall or link event (R38), DRIVE OFFLINE (R18), STRING
RESET (R20). -/
inductive Ending where
  | failing (status : Status)
  | event (status : Status)
  | offline
  | stringReset
  deriving DecidableEq, Repr

/-- The request an engine serves (R85) on one physical track, with the link of its transfer exchange.
`last` is the last sector served on the track (R89); `nextTake` is the sector index of the next DATA frame of a WRITE to take (R88). -/
structure Service where
  request : Nat
  drive : DriveNo
  kind : ReqKind
  issuer : Option Issuer
  link : Option Link
  start : Addr
  logical : Track
  track : Track
  current : Option Nat
  last : Nat
  nextTake : Nat
  deriving DecidableEq, Repr

/-- An engine record (R85). -/
structure Engine where
  service : Option Service
  buf1 : Buffer
  buf2 : Buffer
  retry : Nat
  markC : Option Addr
  markT : Option Addr
  phase : Phase
  writing : Bool
  ending : Option Ending
  cut : Bool
  deriving DecidableEq, Repr

/-- A free engine (R85). -/
def Engine.idle : Engine := ⟨none, .empty, .empty, 0, none, none, .idle, false, none, false⟩

/-- Phases of a copy (R122). -/
inductive CopyPhase where
  | read | write
  deriving DecidableEq, Repr

/-- The copy record, present while the track buffer is HELD (R122). -/
structure CopyRecord where
  request : Nat
  kind : ReqKind
  issuer : Option Issuer
  form : Form
  drive : DriveNo
  logical : Track
  source : Track
  dest : Nat
  toRead : SectorSet
  captured : SectorSet
  unrecovered : SectorSet
  phase : CopyPhase
  places : List (Nat × List Byte)
  deriving DecidableEq, Repr

/-! ### The whole -/

/-- The state of the controller. -/
structure State where
  mode : Mode
  time : Time
  links : PerLink LinkPort
  hosts : PerHost (Option HostState)
  fences : PerHost (PerDrive (List Extent))
  drives : PerDrive Drive
  engines : PerEngine Engine
  copy : Option CopyRecord
  history : List HistEntry
  overflow : Nat
  staging : Option Staging
  settings : Settings
  settingsLoaded : Bool
  profile40 : Option Profile
  profile80 : Option Profile
  resetting : Bool
  nextRequest : Nat
  nextChain : Nat
  freeCount : Nat
  pending : List Instr
  deriving DecidableEq, Repr

/-- Why the machine stops with a fault: never. Every event of the manual has an effect or is discarded, so this type
has no constructor (INVENTORY.md, Faults; log entry 13). -/
inductive Fault where
  deriving DecidableEq, Repr

/-- Why a command has no meaning. -/
inductive Refusal where
  /-- The command is not modelled: raised by no arm of `exec`; safe. -/
  | notModelled (mnemonic : String)
  deriving DecidableEq, Repr

/-- The state after reset: power-on (R173) with no link signal and no drive answering (log entry 1, DESIGN CHOICE).
POWER_ON gives the signals and the answers. -/
def State.reset : State :=
  { mode := .loading, time := 0, links := PerLink.const (LinkPort.idle false), hosts := PerHost.const none,
    fences := PerHost.const (PerDrive.const []), drives := PerDrive.const Drive.initial,
    engines := PerEngine.const Engine.idle, copy := none, history := [], overflow := 0, staging := none,
    settings := Settings.default, settingsLoaded := false, profile40 := none, profile80 := none,
    resetting := false, nextRequest := 0, nextChain := 0, freeCount := 0, pending := [] }

end Sys2Proof.Machine
end

