-- ==== Sys2Proof/Machine/Geometry.lean ====
section
/-! DEFINITION. Where things lie: tracks, sectors and slots (R1, R2), ranges (R28), the spare map's translation (R112,
R114), and the access-time estimate and score (R72 to R76). -/
namespace Sys2Proof.Machine

/-- First alternate cylinder (R2), which is one past the last data cylinder. -/
def DriveType.firstAlternate : DriveType → Nat
  | .d40 => 320
  | .d80 => 640

/-- The type a known type code names (R6). -/
def typeOfCode : TypeCode → Option DriveType
  | .d40 => some .d40
  | .d80 => some .d80
  | .unknown => none

/-- The type that places a position's data and alternate areas: that of the capability record, else the declared
type of the map (R112 says they agree whenever the drive holds requests), else D80. -/
def Drive.type (dr : Drive) : DriveType :=
  match dr.cap.bind (fun c => typeOfCode c.code) with
  | some t => t
  | none => match dr.map.bound with
    | some (_, t) => t
    | none => .d80

/-- Tracks in sector order: heads of one cylinder, then the next cylinder (R28). -/
def Track.number (t : Track) : Nat := t.cyl * 12 + t.head

/-- The track of a number in that order. -/
def Track.ofNumber (n : Nat) : Track := ⟨n / 12, n % 12⟩

/-- The track of a sector. -/
def Addr.track (a : Addr) : Track := ⟨a.cyl, a.head⟩

/-- Sectors in sector order (R28). -/
def Addr.number (a : Addr) : Nat := a.track.number * 32 + a.sector

/-- The sector of a number in that order. -/
def Addr.ofNumber (n : Nat) : Addr := ⟨n / 32 / 12, n / 32 % 12, n % 32⟩

/-- A sector of a track. -/
def Track.addr (t : Track) (k : Nat) : Addr := ⟨t.cyl, t.head, k⟩

/-- Start slot of sector k under physical head h (R1). -/
def startSlot (k h : Nat) : Nat := 4 * ((k + h) % 32)

/-! ### Sets of sectors -/

/-- Membership in a set of sectors. -/
def SectorSet.has (v : SectorSet) (k : Nat) : Bool := v.getLsbD k

/-- A set with one sector more. -/
def SectorSet.add (v : SectorSet) (k : Nat) : SectorSet := v ||| ((1#32) <<< k)

/-- The members in ascending order. -/
def SectorSet.members (v : SectorSet) : List Nat := (List.range 32).filter (fun k => v.getLsbD k)

/-- The number of members. -/
def SectorSet.size (v : SectorSet) : Nat := (SectorSet.members v).length

/-- The lowest member. -/
def SectorSet.lowest (v : SectorSet) : Option Nat := (SectorSet.members v).head?

/-- The lowest member above k. -/
def SectorSet.above (v : SectorSet) (k : Nat) : Option Nat := ((SectorSet.members v).filter (fun j => decide (k < j))).head?

/-- All 32 sectors. -/
def SectorSet.all : SectorSet := BitVec.allOnes 32

/-! ### Requests -/

/-- Kinds whose record names one whole track (R65). -/
def ReqKind.wholeTrack : ReqKind → Bool
  | .reassign | .patrol | .autoReassign => true
  | _ => false

/-- Kinds the reassignment unit carries out (R123). -/
def ReqKind.reassigns : ReqKind → Bool
  | .reassign | .autoReassign => true
  | _ => false

/-- States that hold the arm (R66). -/
def ReqState.holdsArm : ReqState → Bool
  | .positioning | .orienting | .transferring => true
  | _ => false

/-- The next logical sector (R65 a). -/
def Request.next (r : Request) : Addr :=
  if r.kind.wholeTrack then r.start else Addr.ofNumber (r.start.number + r.done)

/-- Whether a request touches a logical track: its whole range, first track to last (R117). -/
def Request.touches (r : Request) (t : Track) : Bool :=
  decide (r.start.track.number ≤ t.number) &&
    decide (t.number ≤ (r.start.number + (r.count - 1)) / 32)

/-! ### Spare maps -/

/-- The entry of a logical track. -/
def SpareMap.entry? (m : SpareMap) (t : Track) : Option Entry := m.entries.find? (fun e => e.primary == t)

/-- Where alternate index a lies (R112 b). -/
def altTrack (ty : DriveType) (a : Nat) : Track := ⟨ty.firstAlternate + a / 12, a % 12⟩

/-- Translation of a logical track (R112). -/
def translate (ty : DriveType) (m : SpareMap) (t : Track) : Track :=
  match m.entry? t with
  | none => t
  | some e => altTrack ty e.alt

/-- Reverse translation of a physical track (R114). -/
def reverse (ty : DriveType) (m : SpareMap) (p : Track) : Option Track :=
  if p.cyl < ty.firstAlternate then some p
  else (m.entries.find? (fun e => e.alt == (p.cyl - ty.firstAlternate) * 12 + p.head)).map (·.primary)

/-- The entry of a track is COPYING. -/
def SpareMap.isCopying (m : SpareMap) (t : Track) : Bool :=
  match m.entry? t with
  | some { state := .copying _, .. } => true
  | _ => false

/-- The validity set of an entry; all sectors when ACTIVE (R107). -/
def EntryState.valid : EntryState → SectorSet
  | .active => SectorSet.all
  | .void v => v
  | .copying v => v

/-- A sector is void: its entry is VOID and the sector lies outside the validity set (R100). -/
def SpareMap.isVoid (m : SpareMap) (t : Track) (k : Nat) : Bool :=
  match m.entry? t with
  | some { state := .void v, .. } => !SectorSet.has v k
  | _ => false

/-- ACTIVE when no sector is missing, VOID otherwise (R108). -/
def settledState (v : SectorSet) : EntryState := if v = SectorSet.all then .active else .void v

/-- Replace the entry of a track. -/
def SpareMap.updEntry (m : SpareMap) (t : Track) (f : Entry → Entry) : SpareMap :=
  { m with entries := m.entries.map (fun e => if e.primary == t then f e else e) }

/-- Insert an entry at its place in the sort order (R106). -/
def insertEntry (e : Entry) : List Entry → List Entry
  | [] => [e]
  | x :: xs => if e.primary.number < x.primary.number then e :: x :: xs else x :: insertEntry e xs

/-- The state of an alternate. -/
def SpareMap.altState (m : SpareMap) (a : Nat) : AltState := m.pool.getD a .retired

/-- Set the state of an alternate. -/
def SpareMap.setAlt (m : SpareMap) (a : Nat) (x : AltState) : SpareMap := { m with pool := m.pool.set a x }

/-- Set the states of several alternates. -/
def SpareMap.setAlts (m : SpareMap) (xs : List Nat) (x : AltState) : SpareMap :=
  xs.foldl (fun m a => m.setAlt a x) m

/-- The lowest-numbered FREE alternate (R110). -/
def SpareMap.lowestFree (m : SpareMap) : Option Nat := (List.range 96).find? (fun a => m.altState a == .free)

/-! ### The estimate and the score -/

/-- Interpolation between two points of the profile (R74 c). -/
def interpolate (r : Rounding) (lo hi : Nat × Nat) (d : Nat) : Nat :=
  let n := (hi.2 - lo.2) * (d - lo.1)
  let w := hi.1 - lo.1
  match r with
  | .chop => lo.2 + n / w
  | .round => lo.2 + (2 * n + w) / (2 * w)

/-- The seek time past the first point: the first band that reaches d, or the last T (R74 b, c). -/
def seekBands (r : Rounding) (d : Nat) : Nat × Nat → List (Nat × Nat) → Nat
  | lo, [] => lo.2
  | lo, hi :: rest => if d ≤ hi.1 then interpolate r lo hi d else seekBands r d hi rest

/-- Stage 2: the seek time of a distance (R74). -/
def seekTime (p : Profile) (r : Rounding) (d : Nat) : Nat :=
  match p.points with
  | [] => 0
  | p0 :: rest => if d ≤ p0.1 then p0.2 else seekBands r d p0 rest

/-- Stage 1: the move between two physical tracks (R73). -/
def moveTime (p : Profile) (r : Rounding) (src dst : Track) : Nat :=
  if src = dst then 0
  else if src.cyl = dst.cyl then p.headSwitch
  else seekTime p r (if dst.cyl ≤ src.cyl then src.cyl - dst.cyl else dst.cyl - src.cyl)

/-- Stage 3: the wait for sector k on a track, slot known or unknown (R75). -/
def waitTime (lead move : Nat) (slot : Option Nat) (t : Track) (k : Nat) : Nat :=
  match slot with
  | none => 64
  | some s0 => (startSlot k t.head + 128 - (s0 + move + lead) % 128) % 128

/-- Stage 4: the estimate (R76). -/
def estimate (p : Profile) (st : Settings) (src : Track) (slot : Option Nat) (t : Track) (k : Nat) : Nat :=
  let move := moveTime p st.rounding src t
  move + st.lead + waitTime st.lead move slot t k

/-- Stage 5: the score, the estimate less aging, not below 0 (R76). -/
def scoreOf (st : Settings) (estimate passes : Nat) : Nat := estimate - st.aging * passes

/-- The orientation point: L slots before the start of sector k on a track (R78). -/
def orientationSlot (lead : Nat) (t : Track) (k : Nat) : Nat := (startSlot k t.head + 128 - lead % 128) % 128

/-! ### Conditions of a range -/

/-- The first logical sector out of range of a queued order, if any (R29, check 7). -/
def addressFault (ty : DriveType) (start : Addr) (count : Nat) : Option Addr :=
  if 11 < start.head ∨ 31 < start.sector ∨ ¬ start.cyl < ty.firstAlternate then some start
  else
    let last := start.number + (count - 1)
    if last < ty.firstAlternate * 384 then none else some ⟨ty.firstAlternate, 0, 0⟩

/-- The tracks of a range in sector order (R61 c). -/
def rangeTracks (start : Addr) (count : Nat) : List Track :=
  let first := start.track.number
  let last := (start.number + (count - 1)) / 32
  (List.range (last - first + 1)).map (fun i => Track.ofNumber (first + i))

/-- An extent grants an access to a cylinder (R61 c). -/
def Extent.grants (x : Extent) (writes : Bool) (cyl : Nat) : Bool :=
  decide (x.low ≤ cyl) && decide (cyl ≤ x.high) &&
    (match x.access with
     | .readWrite => true
     | .read => !writes
     | .write => writes)

/-- The first track a fence does not grant (R61); a fence with no extents grants all. -/
def fenceFault (fence : List Extent) (writes : Bool) (start : Addr) (count : Nat) : Option Track :=
  if fence.isEmpty then none
  else (rangeTracks start count).find? (fun t => !fence.any (fun x => x.grants writes t.cyl))

/-- The constraints of a seek profile (R74, the PROFILE row of R166). -/
def Profile.ordered (p : Profile) (t : DriveType) : Bool :=
  let ds := p.points.map (·.1)
  let ts := p.points.map (·.2)
  decide (p.points.length = 8) && ds.headD 0 == 1 && (ds.zip ds.tail).all (fun x => decide (x.1 < x.2)) &&
    decide ((match t with | .d40 => (319 : Nat) | .d80 => 639) ≤ ds.getLastD 0) && decide ((1 : Nat) ≤ ts.headD 0) &&
    (ts.zip ts.tail).all (fun x => decide (x.1 ≤ x.2)) && decide (ts.getLastD 0 ≤ 1023)

end Sys2Proof.Machine
end

