-- ==== Sys2Proof/Machine/Operands.lean ====
section
/-! DEFINITION. The operands of orders: order codes, check 1 on an ORDER frame (R28, R29, R176), and the reading of the
table images carried in DATA frames (section 11.2, R165, R176). -/
namespace Sys2Proof.Machine

/-- Order codes, numbered 1 to 28 in the order of the table of section 2.4 (section 11.1). -/
inductive OrderCode where
  | read | write | verify | update | reassign | claim | claimWithNotice | yield | readCheckRecord
  | beginLoad | loadSegment | endLoad | abandonLoad | readMap | readSnapshot | readHistory | readSettings
  | editHost | editFence | editProfile | editSettings | editMap
  | quiesce | resume | stringReset | breakClaim | driveOffline | driveOnline
  deriving DecidableEq, Repr

/-- The order codes in number order, from 1. -/
def OrderCode.all : List OrderCode :=
  [.read, .write, .verify, .update, .reassign, .claim, .claimWithNotice, .yield, .readCheckRecord,
   .beginLoad, .loadSegment, .endLoad, .abandonLoad, .readMap, .readSnapshot, .readHistory, .readSettings,
   .editHost, .editFence, .editProfile, .editSettings, .editMap,
   .quiesce, .resume, .stringReset, .breakClaim, .driveOffline, .driveOnline]

/-- The number of an order code. -/
def OrderCode.number (c : OrderCode) : Nat := OrderCode.all.findIdx (fun x => x == c) + 1

/-- Queued orders, the data orders (section 2.4). -/
def OrderCode.queued : OrderCode → Bool
  | .read | .write | .verify | .update | .reassign => true
  | _ => false

/-- Classes of orders for the mode check (R30). -/
inductive OrderClass where
  | queued | claims | load | readout | tableEdit | mapOrFence | control
  deriving DecidableEq, Repr

/-- The class of an order (R30). -/
def OrderCode.cls : OrderCode → OrderClass
  | .read | .write | .verify | .update | .reassign => .queued
  | .claim | .claimWithNotice | .yield | .readCheckRecord => .claims
  | .beginLoad | .loadSegment | .endLoad | .abandonLoad => .load
  | .readMap | .readSnapshot | .readHistory | .readSettings => .readout
  | .editHost | .editProfile | .editSettings => .tableEdit
  | .editMap | .editFence => .mapOrFence
  | .quiesce | .resume | .stringReset | .breakClaim | .driveOffline | .driveOnline => .control

/-- A byte of the order image, by its offset in the frame (16 to 39). -/
def imageByte (f : OrderFrame) (offset : Nat) : Nat := (f.image.getD (offset - 16) 0).toNat

/-- Two bytes of the order image, most significant first. -/
def imageWord (f : OrderFrame) (offset : Nat) : Nat := imageByte f offset * 256 + imageByte f (offset + 1)

/-- The orders that name a drive in byte 3. A LOAD SEGMENT of an undefined form is taken to name one: byte 3 is examined
before the form byte, which then refuses it (R176; log entry 9). -/
def OrderCode.namesDrive (c : OrderCode) (form : Byte) : Bool :=
  match c with
  | .read | .write | .verify | .update | .reassign | .claim | .claimWithNotice | .yield | .readMap | .editFence
  | .editMap | .breakClaim | .driveOffline | .driveOnline => true
  | .loadSegment => form != 1 && form != 2 && form != 4
  | _ => false

/-- The form byte lies outside the values its order defines (R176 f, h). -/
def OrderCode.formFault (c : OrderCode) (form : Byte) : Bool :=
  match c with
  | .reassign | .editHost | .editProfile => form != 1 && form != 2
  | .editMap => form == 0 || decide (4 < form.toNat)
  | .loadSegment => form == 0 || decide (5 < form.toNat)
  | _ => form != 0

/-- The number of DATA frames an order's image takes (R176 g). -/
def OrderCode.imageFrames (c : OrderCode) (form : Byte) : Nat :=
  match c with
  | .editProfile | .editSettings => 1
  | .loadSegment => if form = 5 then 3 else 1
  | _ => 0

/-- Bytes of the order image from an offset on that must be zero (R176 h). -/
def unusedFrom (f : OrderFrame) (offset : Nat) : List (Nat × Bool) :=
  (List.range (40 - offset)).map (fun i => (offset + i, imageByte f (offset + i) != 0))

/-- A number outside 1 to n. -/
def outside (n x : Nat) : Bool := x == 0 || decide (n < x)

/-- Faults of the extents of a fence image, the first extent at an offset. -/
def extentFaults (byte : Nat → Nat) (offset n : Nat) : List (Nat × Bool) :=
  (List.range n).map (fun i => (offset + 5 * i + 4, outside 3 (byte (offset + 5 * i + 4))))

/-- Faults of the order image, by ascending offset (R176, section 11.1). An unused byte of the image that is not 0 is
named by its own offset, the bytes of an unused field among them, such as byte 17 of a RETIRE; R176 h) gives none (log entry
9). R176 a) to h) name no limit for the bytes of a field of the order image either. That a host byte outside 1 to 4 is refused
here, in EDIT FENCE and not with NO-HOST (R63), in EDIT HOST REMOVE and not with NOT-PRESENT (R48); and so, in EDIT HOST SET, a
link set or a class set above 15 and an authority or notice-inhibit byte above 1; and, in EDIT MAP, a cylinder above 647, a
head above 11 and an alternate above 95: each at its own offset, is the model's choice (log entry 9). R63 and R165 themselves
have more than four extents, an access outside its codes and a key of a LOAD SEGMENT outside R164 refused FORMAT. -/
def imageFaults (c : OrderCode) (f : OrderFrame) : List (Nat × Bool) :=
  let b := imageByte f
  match c with
  | .editHost =>
    if f.form = 2 then (16, outside 4 (b 16)) :: unusedFrom f 17
    else [(16, outside 4 (b 16)), (17, decide (15 < b 17)), (18, decide (1 < b 18)), (19, decide (15 < b 19)),
          (20, decide (1 < b 20))] ++ unusedFrom f 22
  | .editFence =>
    [(16, outside 4 (b 16)), (17, b 17 != f.drive.toNat), (18, decide (4 < b 18))] ++
      extentFaults b 19 (if b 18 ≤ 4 then b 18 else 0) ++ unusedFrom f (19 + 5 * (if b 18 ≤ 4 then b 18 else 0))
  | .editMap =>
    match f.form.toNat with
    | 1 => [(16, decide (647 < imageWord f 16)), (18, decide (11 < b 18)), (19, decide (95 < b 19))] ++ unusedFrom f 20
    | 2 => [(16, decide (647 < imageWord f 16)), (18, decide (11 < b 18))] ++ unusedFrom f 19
    | 3 => [(16, b 16 != 0), (17, b 17 != 0), (18, b 18 != 0), (19, decide (95 < b 19))] ++ unusedFrom f 20
    | _ => unusedFrom f 16
  | .loadSegment =>
    [(16, if f.form = 2 ∨ f.form = 3 then outside 4 (b 16) else b 16 != 0),
     (17, if f.form = 4 then outside 2 (b 17) else b 17 != 0)] ++ unusedFrom f 18
  | _ => unusedFrom f 16

/-- Faults of the fields of an ORDER frame, by ascending offset (R176 a to h). An UPDATE whose offset and length are each
in range and whose sum exceeds 512 is at fault in its length field (R176 d names no field; log entry 9). An unused field of two
bytes, 5 to 6 or 10 to 13, is named by its first offset, whichever byte is not 0 (R176 h gives none; log entry 9). -/
def fieldFaults (c : OrderCode) (f : OrderFrame) : List (Nat × Bool) :=
  let counted : Bool := c == .read || c == .write || c == .verify
  let update : Bool := c == .update
  let reassign : Bool := c == .reassign
  let tracks : Bool := c.queued
  [ (3, if c.namesDrive f.form then decide (7 < f.drive.toNat) else f.drive != 0),
    (4, (f.flags &&& (if c = .readHistory then 0xFC#8 else 0xFE#8)) != 0),
    (5, !tracks && f.cylinder != 0),
    (7, !tracks && f.head != 0),
    (8, if tracks && !reassign then false else f.sector != 0),
    (9, if counted then outside 32 f.count.toNat else if update then f.count != 1 else f.count != 0),
    (10, if update then decide (511 < f.offset.toNat) else f.offset != 0),
    (12, if update then outside 512 f.length.toNat || decide (512 < f.offset.toNat + f.length.toNat) else f.length != 0),
    (14, c.formFault f.form),
    (15, f.frames.toNat != c.imageFrames f.form) ] ++ imageFaults c f

/-- The offset of the first field at fault. -/
def firstFault (xs : List (Nat × Bool)) : Option Nat := (xs.find? (fun x => x.2)).map (·.1)

/-- The detail of a FORMAT refusal (R176). -/
inductive FormatDetail where
  | field (offset : Nat)
  | image (offset : Nat)
  | chainIndicator | chainDrive | chainLength | missingData
  deriving DecidableEq, Repr

/-- Detail bytes 4 to 7 (R176). -/
def FormatDetail.bytes : FormatDetail → List Byte
  | .field o => [1, BitVec.ofNat 8 o, 0, 0]
  | .image o => [2, BitVec.ofNat 8 (o / 256), BitVec.ofNat 8 o, 0]
  | .chainIndicator => [3, 0, 0, 0]
  | .chainDrive => [4, 0, 0, 0]
  | .chainLength => [5, 0, 0, 0]
  | .missingData => [6, 0, 0, 0]

/-- The continue-chain indicator (section 11.1). -/
def continues (f : OrderFrame) : Bool := f.flags.getLsbD 0

/-- Check 1 of R29 on an ORDER with a defined code: its length (R175), its fields in ascending offset, then the chain
conditions against the open chain of its link (R29, R33, R176). -/
def formFault (c : OrderCode) (f : OrderFrame) (chain : Option OpenChain) : Option FormatDetail :=
  if f.size ≠ 40 then some (.field 0)
  else match firstFault (fieldFaults c f) with
    | some o => some (.field o)
    | none =>
      if c.queued then
        match chain with
        | some k =>
          if DriveNo.ofNat? f.drive.toNat ≠ some k.drive then some .chainDrive
          else if Config.chainLimit ≤ k.members then some .chainLength else none
        | none => none
      else if continues f then some .chainIndicator else none

/-- The drive an order names; drive 0 where check 1 has refused the field. -/
def orderDrive (f : OrderFrame) : DriveNo := (DriveNo.ofNat? f.drive.toNat).getD .d0

/-- The logical start a queued order names. -/
def orderStart (f : OrderFrame) : Addr := ⟨f.cylinder.toNat, f.head.toNat, f.sector.toNat⟩

/-! ### Table images -/

/-- A byte of an image. -/
def byteAt (xs : List Byte) (i : Nat) : Nat := (xs.getD i 0).toNat
/-- Two bytes of an image, most significant first. -/
def wordAt (xs : List Byte) (i : Nat) : Nat := byteAt xs i * 256 + byteAt xs (i + 1)

/-- A host entry from bytes 1 to 5 of its image (section 11.2). -/
def hostEntryOf (b : Nat → Nat) : HostEntry :=
  { links := BitVec.ofNat 4 (b 1), authority := b 2 == 1, enableC := (b 3).testBit 0, enableT := (b 3).testBit 1,
    enableS := (b 3).testBit 2, enableE := (b 3).testBit 3, inhibit := b 4 == 1, watch := BitVec.ofNat 8 (b 5) }

/-- The access of a code (section 11.2). -/
def accessOf : Nat → Access
  | 1 => .read
  | 2 => .write
  | _ => .readWrite

/-- The extents of a fence image, the first at an offset. -/
def extentsOf (word byte : Nat → Nat) (offset n : Nat) : List Extent :=
  (List.range n).map (fun i =>
    ⟨word (offset + 5 * i), word (offset + 5 * i + 2), accessOf (byte (offset + 5 * i + 4))⟩)

/-- The drive type of a code (section 11.1). -/
def driveTypeOf : Nat → Option DriveType
  | 1 => some .d40
  | 2 => some .d80
  | _ => none

/-- Faults of a host entry image (section 11.2, R176). -/
def hostImageFaults (host : Nat) (b : Nat → Nat) : List (Nat × Bool) :=
  [(0, b 0 != host), (1, decide (15 < b 1)), (2, decide (1 < b 2)), (3, decide (15 < b 3)), (4, decide (1 < b 4)),
   (6, b 6 != 0), (7, b 7 != 0)]

/-- Faults of a fence image. -/
def fenceImageFaults (host drive : Nat) (xs : List Byte) : List (Nat × Bool) :=
  let b := byteAt xs
  [(0, b 0 != host), (1, b 1 != drive), (2, decide (4 < b 2))] ++
    extentFaults b 3 (if b 2 ≤ 4 then b 2 else 0)

/-- Faults of a profile image; its points are examined by R166 and R169, not here. -/
def profileImageFaults (t : DriveType) (xs : List Byte) : List (Nat × Bool) :=
  [(0, driveTypeOf (byteAt xs 0) != some t), (1, decide (15 < byteAt xs 1))]

/-- A profile from its image. -/
def profileOf (xs : List Byte) : Profile :=
  ⟨(List.range 8).map (fun i => (wordAt xs (2 + 4 * i), wordAt xs (4 + 4 * i))), byteAt xs 1⟩

/-- Faults of the four settings of a drive. Section 11.2 gives the auto-spare and patrol bytes no codes, and R174 the values
on and off: that 0 is off, 1 on, and any other value out of range is the model's choice (log entry 9). -/
def driveSettingsFaults (b : Nat → Nat) (o : Nat) : List (Nat × Bool) :=
  [(o, outside 3 (b o)), (o + 1, decide (15 < b (o + 1))), (o + 2, decide (1 < b (o + 2))), (o + 3, decide (1 < b (o + 3)))]

/-- Faults of a settings image: the ranges of R174; byte 42 is used in READ SETTINGS only. -/
def settingsImageFaults (xs : List Byte) : List (Nat × Bool) :=
  let b := byteAt xs
  [(0, decide (7 < b 0)), (2, outside 15 (b 2)), (3, decide (15 < b 3)), (4, outside 7 (b 4)), (5, outside 2 (b 5)),
   (6, b 6 == 0), (8, b 8 == 0)] ++
  ((List.range 8).map (fun i => driveSettingsFaults b (10 + 4 * i))).flatten ++ [(42, b 42 != 0)]

/-- The ECC mode of a code (section 11.2). -/
def eccOf : Nat → EccMode
  | 1 => .off
  | 2 => .detect
  | _ => .correct

/-- The four settings of a drive from its bytes; auto-spare and patrol are on at 1 (log entry 9). -/
def driveSettingsOf (b : Nat → Nat) (o : Nat) : DriveSettings :=
  ⟨eccOf (b o), b (o + 1), b (o + 2) == 1, b (o + 3) == 1⟩

/-- Settings from their image (section 11.2). -/
def settingsOf (xs : List Byte) : Settings :=
  let b := byteAt xs
  let d := fun i => driveSettingsOf b (10 + 4 * i)
  { lead := b 0, aging := b 1, forced := b 2, rotation := b 3, missLimit := b 4,
    rounding := if b 5 = 1 then .chop else .round, stallLimit := b 6, orphanLimit := b 7, spareThreshold := b 8,
    patrolInterval := b 9, perDrive := ⟨d 0, d 1, d 2, d 3, d 4, d 5, d 6, d 7⟩ }

/-- The validity set of an entry record, sector 0 in the least significant bit of its four bytes. -/
def setAt (xs : List Byte) (i : Nat) : SectorSet :=
  BitVec.ofNat 32 (((byteAt xs i * 256 + byteAt xs (i + 1)) * 256 + byteAt xs (i + 2)) * 256 + byteAt xs (i + 3))

/-- The number of retained alternates named by the entry records before the i-th. -/
def retainedBefore (xs : List Byte) (i : Nat) : Nat :=
  ((List.range i).map (fun j => byteAt xs (8 + 12 * j + 7))).foldl (· + ·) 0

/-- Faults of the i-th entry record of a map image of n entries (section 11.2, R176). Records are ordered by cylinder, then
head, whatever the head byte holds (R106). R176 names no offset for records out of order, here the first byte of the later
one, nor for a sum of retained counts above 96, here the count byte with which the running sum passes 96 (log entry 9). -/
def entryFaults (xs : List Byte) (n i : Nat) : List (Nat × Bool) :=
  let o := 8 + 12 * i
  let b := byteAt xs
  let key := fun o => wordAt xs o * 256 + b (o + 2)
  if i < n then
    [(o, decide (647 < wordAt xs o) || (decide (0 < i) && decide (key o < key (o - 12)))),
     (o + 2, decide (11 < b (o + 2))), (o + 3, decide (95 < b (o + 3))), (o + 4, outside 3 (b (o + 4))),
     (o + 5, outside 3 (b (o + 5))), (o + 6, decide (15 < b (o + 6))),
     (o + 7, decide (96 < retainedBefore xs (i + 1))),
     (o + 8, b (o + 4) == 1 && setAt xs (o + 8) != 0)]
  else (List.range 12).map (fun j => (o + j, b (o + j) != 0))

/-- Faults of a spare map image (section 11.2, R176). An unbound map's declared type holds nothing, 255, and its serial bytes
are not examined (log entry 9). -/
def mapImageFaults (xs : List Byte) : List (Nat × Bool) :=
  let b := byteAt xs
  let n := b 5
  let r := retainedBefore xs (if n ≤ 96 then n else 0)
  [(0, decide (1 < b 0)), (1, b 0 == 1 && decide (999999 < b 1 * 65536 + wordAt xs 2)),
   (4, if b 0 = 1 then outside 2 (b 4) else b 4 != 255), (5, decide (96 < n)), (6, b 6 != 0), (7, b 7 != 0)] ++
  ((List.range 96).map (fun i => entryFaults xs n i)).flatten ++
  (List.range 96).map (fun i => (1160 + i, outside 3 (b (1160 + i)))) ++
  (List.range 96).map (fun i => (1256 + i, if i < r then decide (95 < b (1256 + i)) else b (1256 + i) != 0)) ++
  (List.range 184).map (fun i => (1352 + i, b (1352 + i) != 0))

/-- An entry from its record; an installed entry has origin LOADED (R109 a). -/
def entryOf (xs : List Byte) (i : Nat) : Entry :=
  let o := 8 + 12 * i
  let b := byteAt xs
  { primary := ⟨wordAt xs o, b (o + 2)⟩, alt := b (o + 3),
    state := (match b (o + 4) with
      | 1 => .active
      | 2 => .void (setAt xs (o + 8))
      | _ => .copying (setAt xs (o + 8))),
    retained := (List.range (b (o + 7))).map (fun j => b (1256 + retainedBefore xs i + j)),
    origin := .loaded, generation := b (o + 6) }

/-- The pool state of a code (section 11.2). -/
def altStateOf : Nat → AltState
  | 1 => .free
  | 2 => .assigned
  | _ => .retired

/-- A spare map from its image. -/
def mapOf (xs : List Byte) : SpareMap :=
  { bound := if byteAt xs 0 = 1 then
      some (Fin.ofNat 1000000 (byteAt xs 1 * 65536 + wordAt xs 2), if byteAt xs 4 = 1 then .d40 else .d80)
      else none,
    entries := (List.range (byteAt xs 5)).map (entryOf xs),
    pool := (List.range 96).map (fun i => altStateOf (byteAt xs (1160 + i))) }

/-- The key a LOAD SEGMENT names (R164, section 11.1), after check 1. -/
def segKeyOf (f : OrderFrame) : SegKey :=
  match f.form.toNat with
  | 1 => .settings
  | 2 => .host ((HostNo.ofNat? (imageByte f 16)).getD .h1)
  | 3 => .fence ((HostNo.ofNat? (imageByte f 16)).getD .h1) (orderDrive f)
  | 4 => .profile (if imageByte f 17 = 1 then .d40 else .d80)
  | _ => .map (orderDrive f)

/-- A segment image read from its bytes: its faults against R176, or the image. -/
def segImageOf (key : SegKey) (xs : List Byte) : Option Nat × SegImage :=
  match key with
  | .settings => (firstFault (settingsImageFaults xs), .settings (settingsOf xs))
  | .host h => (firstFault (hostImageFaults (h.bit + 1) (byteAt xs)), .host (hostEntryOf (byteAt xs)))
  | .fence h d => (firstFault (fenceImageFaults (h.bit + 1) d.toNat xs),
      .fence (extentsOf (wordAt xs) (byteAt xs) 3 (byteAt xs 2)))
  | .profile t => (firstFault (profileImageFaults t xs), .profile (profileOf xs))
  | .map _ => (firstFault (mapImageFaults xs), .map (mapOf xs))

end Sys2Proof.Machine
end

