-- ==== Sys2Proof/Machine/Flags.lean ====
section
/-! DEFINITION. What the block reports: conditions (R4), report classes, check records (R147 to R149), report queues
with reservations, lost notices and GAP frames (R152 to R156). -/
namespace Sys2Proof.Machine

/-! ### Reading and replacing parts of the state -/

/-- A drive position. -/
def State.drive (s : State) (d : DriveNo) : Drive := s.drives.get d
/-- Change a drive position. -/
def State.updDrive (s : State) (d : DriveNo) (f : Drive → Drive) : State :=
  { s with drives := s.drives.set d (f (s.drives.get d)) }
/-- A link port. -/
def State.link (s : State) (l : Link) : LinkPort := s.links.get l
/-- Change a link port. -/
def State.updLink (s : State) (l : Link) (f : LinkPort → LinkPort) : State :=
  { s with links := s.links.set l (f (s.links.get l)) }
/-- A host of the table. -/
def State.host (s : State) (h : HostNo) : Option HostState := s.hosts.get h
/-- Change a host that is in the table. -/
def State.updHost (s : State) (h : HostNo) (f : HostState → HostState) : State :=
  { s with hosts := s.hosts.set h ((s.hosts.get h).map f) }
/-- An engine. -/
def State.engine (s : State) (e : EngineNo) : Engine := s.engines.get e
/-- Change an engine. -/
def State.updEngine (s : State) (e : EngineNo) (f : Engine → Engine) : State :=
  { s with engines := s.engines.set e (f (s.engines.get e)) }

/-- The four settings of a drive. -/
def State.driveSettings (s : State) (d : DriveNo) : DriveSettings := s.settings.perDrive.get d

/-! ### Conditions and sets -/

/-- The reported condition of a drive state (R4). -/
def DriveState.condition : DriveState → Condition
  | .ready | .moving | .orienting | .transferring | .recalibrating => .ready
  | .starting => .notReady
  | .faulted => .faulted
  | .offline => .offline
  | .absent => .absent
  | .incompatible => .incompatible

/-- A drive is usable when its reported condition is READY (R4). -/
def Drive.usable (dr : Drive) : Bool := dr.state.condition == .ready

/-- A link of the path group. -/
def HostEntry.owns (e : HostEntry) (l : Link) : Bool := e.links.getLsbD l.bit

/-- A drive of the watch set. -/
def HostEntry.watches (e : HostEntry) (d : DriveNo) : Bool := e.watch.getLsbD d.toNat

/-- The host whose path group holds the link, none when it is unassigned (R43). -/
def State.owner (s : State) (l : Link) : Option HostNo :=
  HostNo.all.find? (fun h => match s.host h with | some x => x.entry.owns l | none => false)

/-- The authority host (R46). -/
def State.authorityHost (s : State) : Option HostNo :=
  HostNo.all.find? (fun h => match s.host h with | some x => x.entry.authority | none => false)

/-- A host is reachable while a link of its group is not DOWN (R45). -/
def State.reachable (s : State) (h : HostNo) : Bool :=
  match s.host h with
  | some x => Link.all.any (fun l => x.entry.owns l && (s.link l).up)
  | none => false

/-! ### Report queues -/

/-- The occupied slots (R152). -/
def HostState.occupied (x : HostState) : Nat := x.reserved + x.queue.length

/-- A frame is a completion. -/
def Report.isCompletion (r : Report) : Bool :=
  match r.record with
  | .completion _ => true
  | _ => false

/-- The queued completions (R153). -/
def HostState.completions (x : HostState) : Nat := (x.queue.filter Report.isCompletion).length

/-- Notice admission: a free slot, or dropped and counted (R155). -/
def HostState.enqueue (r : Report) (x : HostState) : HostState :=
  if x.occupied < Config.reportLimit then { x with queue := x.queue ++ [r] }
  else { x with lost := saturate 255 (x.lost + 1) }

/-- A slot has freed: with notices lost, a GAP takes it (R156). -/
def HostState.slotFreed (now : Time) (x : HostState) : HostState :=
  if 0 < x.lost ∧ x.occupied < Config.reportLimit then
    { x with queue := x.queue ++ [⟨now, .gap x.lost⟩], lost := 0 }
  else x

/-- A reservation is given up without a completion (R154, R156). -/
def HostState.unreserve (now : Time) (x : HostState) : HostState :=
  HostState.slotFreed now { x with reserved := x.reserved - 1 }

/-- A completion takes its reserved slot (R154). -/
def HostState.complete (r : Report) (x : HostState) : HostState :=
  { x with queue := x.queue ++ [r], reserved := x.reserved - 1 }

/-- What an event writes into a check record (R148). -/
structure CheckEvent where
  code : CheckCode
  drive : DriveNo
  logical : Option Track
  sector : Option Nat
  physical : Option Track

/-- An event reaches the check record (R149, step 1). -/
def CheckRecord.write (now : Time) (ev : CheckEvent) (c : CheckRecord) : CheckRecord :=
  { pending := true, code := some ev.code, drive := some ev.drive, logical := ev.logical, sector := ev.sector,
    physical := ev.physical, time := some now,
    overwrites := if c.pending then saturate 255 (c.overwrites + 1) else c.overwrites }

/-- The check record of a host takes an event. -/
def HostState.note (now : Time) (ev : CheckEvent) (x : HostState) : HostState :=
  { x with check := x.check.write now ev }

/-- A notice to one host, without its check record: the claim notices, MODE and STRING-RESET (R47 e, R155). -/
def State.tell (s : State) (h : HostNo) (rec : Record) : State :=
  s.updHost h (HostState.enqueue ⟨s.time, rec⟩)

/-- The optional classes that drive events have (R47 c). -/
inductive EventClass where
  | s | e
  deriving DecidableEq, Repr

/-- The host receives events of the class on the drive (R47 c). -/
def HostEntry.receives (e : HostEntry) (c : EventClass) (d : DriveNo) : Bool :=
  e.watches d && (match c with | .s => e.enableS | .e => e.enableE)

/-- An event of class S or E reaches one host: check record, then notice unless inhibited (R149). -/
def HostState.drivesEvent (now : Time) (c : EventClass) (d : DriveNo) (ev : CheckEvent) (rec : Record)
    (x : HostState) : HostState :=
  if x.entry.receives c d then
    let x := x.note now ev
    if x.entry.inhibit then x else x.enqueue ⟨now, rec⟩
  else x

/-- An event of class S or E, raised to every host it reaches (R47, R149). -/
def State.raise (s : State) (c : EventClass) (d : DriveNo) (ev : CheckEvent) (rec : Record) : State :=
  { s with hosts := s.hosts.map (fun x => x.map (HostState.drivesEvent s.time c d ev rec)) }

/-- The DRIVE-STATE notice of a change of reported condition (R4). -/
def State.noticeCondition (s : State) (d : DriveNo) (old : Condition) : State :=
  let new := (s.drive d).state.condition
  if new = old then s
  else s.raise .e d ⟨.driveState new, d, none, none, none⟩ (.driveState d new)

/-- The physical track where a logical track's data lies now (R112). -/
def State.translate (s : State) (d : DriveNo) (t : Track) : Track :=
  Machine.translate (s.drive d).type (s.drive d).map t

/-- A VOID-TRACK notice (R133 b). -/
def State.raiseVoidTrack (s : State) (d : DriveNo) (t : Track) (alt voids : Nat) (cause : VoidCause) : State :=
  s.raise .s d ⟨.voidTrack cause, d, some t, none, some (altTrack (s.drive d).type alt)⟩
    (.voidTrack d t alt voids cause)

/-- A SPARED notice (R133 a). -/
def State.raiseSpared (s : State) (d : DriveNo) (t : Track) (form : Form) (e : Entry) (voids : Nat) : State :=
  s.raise .s d ⟨.spared form, d, some t, none, some (altTrack (s.drive d).type e.alt)⟩
    (.spared d t form e.alt e.origin e.generation voids)

/-! ### Completions -/

/-- The report class of a completion: an error of class U, class C or T, or none (R103, R132). -/
inductive CompletionClass where
  | none | u | recovered (cls : RecClass)
  deriving DecidableEq, Repr

/-- The class of a completion (R103, R132). -/
def Completion.reportClass (c : Completion) : CompletionClass :=
  match c.status with
  | .complete => .none
  | .completeRecovered => match c.cls with | some k => .recovered k | none => .none
  | .reassigned => if c.voids = some 0 ∨ c.voids = none then .none else .u
  | _ => .u

/-- The class C or T is enabled for the host. -/
def HostEntry.recoveryEnabled (e : HostEntry) : RecClass → Bool
  | .c => e.enableC
  | .t => e.enableT

/-- A completion as one event of the report unit: placed in its reserved slot, the check record updated, and the
RECOVERED notice queued (R149, R154). `physical` is the translation of the failing address's track. -/
def HostState.takeCompletion (now : Time) (c : Completion) (physical : Option Track) (x : HostState) : HostState :=
  let x := x.complete ⟨now, .completion c⟩
  let ev : CheckEvent := ⟨.completion c.status c.cls, c.drive, c.addr.map Addr.track, c.addr.map (·.sector), physical⟩
  match c.reportClass with
  | .none => x
  | .u => x.note now ev
  | .recovered k =>
    if x.entry.recoveryEnabled k then
      let x := x.note now ev
      match c.addr, physical with
      | some a, some p => if x.entry.inhibit then x else x.enqueue ⟨now, .recovered c.tag c.drive k a p⟩
      | _, _ => x
    else x

/-- Place a completion in the queue of its host (R154). -/
def State.placeCompletion (s : State) (h : HostNo) (c : Completion) : State :=
  s.updHost h (HostState.takeCompletion s.time c (c.addr.map (fun a => s.translate c.drive a.track)))

/-- Give up a reservation of a host (R154). -/
def State.unreserve (s : State) (h : HostNo) : State := s.updHost h (HostState.unreserve s.time)

end Sys2Proof.Machine
end

