-- ==== Sys2Proof/Machine/Ops.lean ====
section
/-! DEFINITION. The named operations every command is built from: frames and waits of a link port (R22 to R27, R36),
staging (R168), requests in drive queues (R64, R83), chains (R33 to R35), drive states (01_drives) and the error
history (R137 to R143). -/
namespace Sys2Proof.Machine

/-! ### Link ports -/

/-- A link is IDLE: signal present and no exchange (02_links, section 2.1). -/
def LinkPort.isIdle (p : LinkPort) : Bool := p.up && p.exchange.isNone

/-- Start a wait afresh at the stall limit; while wait g) runs the start is put off to its end (R36 g). R36 g) says so of
a wait of the exchange; wait a) of an open chain, whose exchange ends while g) runs, is put off in the same way (log entry
16). -/
def LinkPort.startWait (limit : Nat) (w : Wait) (p : LinkPort) : LinkPort :=
  match p.stall with
  | some ⟨.linkBusy, _⟩ => { p with due := some w }
  | _ => { p with stall := some ⟨w, limit⟩ }

/-- A LINK-BUSY answer awaits frame acceptance. -/
def LinkPort.busyOffered (p : LinkPort) : Bool :=
  match p.offered with
  | some (.linkBusy _) => true
  | _ => false

/-- End the wait that runs, other than g), and the start of one that g) puts off (R36). -/
def LinkPort.stopWait (p : LinkPort) : LinkPort :=
  match p.stall with
  | some ⟨.linkBusy, _⟩ => { p with due := none }
  | _ => { p with stall := none }

/-- A LINK-BUSY answer whose bounding wait has ended is bounded by wait g) when no other wait runs, one that the same step
starts among them (R36 g; log entry 16). -/
def LinkPort.boundBusy (limit : Nat) (p : LinkPort) : LinkPort :=
  if p.busyOffered && p.stall.isNone then { p with stall := some ⟨.linkBusy, limit⟩ } else p

/-- The wait that the offer of a frame starts, by the exchange it belongs to (R36 b, c, e, f). -/
def waitFor : Exchange → Frame → Wait
  | .order _, _ => .answer
  | .report _, _ => .report
  | .transfer _ _ writes, _ => if writes then .writeFrame else .readFrame

/-- Offer what is next when no frame awaits acceptance: a LINK-BUSY answer first, then the next frame of the
exchange (R22, R24). -/
def LinkPort.pump (limit : Nat) (p : LinkPort) : LinkPort :=
  match p.offered with
  | some _ => p
  | none => match p.busyTags with
    | t :: rest =>
      { p with offered := some (.linkBusy t), busyTags := rest,
               stall := match p.stall with | some w => some w | none => some ⟨.linkBusy, limit⟩ }
    | [] => match p.toSend, p.exchange with
      | f :: rest, some x => LinkPort.startWait limit (waitFor x f) { p with offered := some (.frame f), toSend := rest }
      | _, _ => p

/-- An exchange opens on an IDLE link with its first frames; wait a) is suspended (R23, R36). -/
def LinkPort.openExchange (limit : Nat) (x : Exchange) (frames : List Frame) (p : LinkPort) : LinkPort :=
  LinkPort.boundBusy limit (LinkPort.pump limit { p.stopWait with exchange := some x, toSend := frames })

/-- Withdraw the frames of the exchange, keeping a LINK-BUSY answer (R38 c). One that was due behind a frame withdrawn is
offered in its place, though R24 offers it once that frame has been accepted: the model's choice (log entry 15). -/
def LinkPort.withdraw (p : LinkPort) : LinkPort :=
  { p with toSend := [], offered := if p.busyOffered then p.offered else none }

/-- The exchange ends and the link is IDLE; with its chain still open, wait a) starts (R23, R36 a). A LINK-BUSY answer due
behind a frame that is never accepted is offered now (log entry 15). -/
def LinkPort.endExchange (limit : Nat) (p : LinkPort) : LinkPort :=
  let p := LinkPort.stopWait { p.withdraw with exchange := none }
  let p := if p.chain.isSome then LinkPort.startWait limit .chain p else p
  LinkPort.boundBusy limit (LinkPort.pump limit p)

/-- An open chain's record goes, with its wait a) (R34). -/
def LinkPort.dropChain (limit : Nat) (p : LinkPort) : LinkPort :=
  let p := { p with chain := none, due := if p.due = some Wait.chain then none else p.due }
  match p.stall with
  | some ⟨.chain, _⟩ => LinkPort.boundBusy limit p.stopWait
  | _ => p

/-- The frame awaiting acceptance is accepted: it is gone and its wait ends. -/
def LinkPort.acceptFrame (p : LinkPort) : LinkPort := LinkPort.stopWait { p with offered := none }

/-- Take an ORDER on a BUSY link: a LINK-BUSY answer (R24). -/
def LinkPort.answerBusy (limit : Nat) (tag : Byte) (p : LinkPort) : LinkPort :=
  LinkPort.pump limit { p with busyTags := p.busyTags ++ [tag] }

/-- The stall limit in force (R36: read when the wait starts). -/
def State.stallLimit (s : State) : Nat := s.settings.stallLimit

/-- The link's exchange ends (R23). -/
def State.endExchange (s : State) (l : Link) : State := s.updLink l (LinkPort.endExchange s.stallLimit)

/-- Discard and close the staging area when a link owns it (R168). -/
def State.dropStaging (s : State) (l : Link) : State :=
  match s.staging with
  | some g => if g.owner = l then { s with staging := none } else s
  | none => s

/-- The lowest-lettered IDLE link of a host's path group (R79, R157). A link with no exchange on which a LINK-BUSY answer still
awaits frame acceptance is IDLE: the model's choice (log entry 25). -/
def State.idleLink (s : State) (h : HostNo) : Option Link :=
  match s.host h with
  | some x => Link.all.find? (fun l => x.entry.owns l && (s.link l).isIdle)
  | none => none

/-- Report delivery for one host (R157). On a link with no exchange whose LINK-BUSY answer still awaits frame acceptance the
exchange opens at once, the link BUSY and the REPORT held behind the answer, where R23 and R27 open an exchange with the offer
of its first frame: the model's choice (log entry 25). -/
def State.deliver (s : State) (h : HostNo) : State :=
  match s.host h with
  | some x =>
    match x.queue, x.reportLink with
    | r :: _, none =>
      match s.idleLink h with
      | some l =>
        (s.updHost h (fun x => { x with reportLink := some l })).updLink l
          (LinkPort.openExchange s.stallLimit (.report h) [.report r])
      | none => s
    | _, _ => s
  | none => s

/-- The delivery test for every host (R157). -/
def State.deliverAll (s : State) : State := HostNo.all.foldl State.deliver s

/-! ### Requests in a drive queue -/

/-- The request of an identity. -/
def Drive.request? (dr : Drive) (id : Nat) : Option Request := dr.queue.find? (fun r => r.id == id)

/-- The arm holder (R66). -/
def Drive.holder (dr : Drive) : Option Request := dr.queue.find? (fun r => r.state.holdsArm)

/-- Change the request of an identity. -/
def Drive.updRequest (dr : Drive) (id : Nat) (f : Request → Request) : Drive :=
  { dr with queue := dr.queue.map (fun r => if r.id == id then f r else r) }

/-- Change a request of a drive. -/
def State.updRequest (s : State) (d : DriveNo) (id : Nat) (f : Request → Request) : State :=
  s.updDrive d (fun dr => dr.updRequest id f)

/-- A selection event on a drive (R68). -/
def State.selectionEvent (s : State) (d : DriveNo) : State := s.updDrive d (fun dr => { dr with selEvent := true })

/-- Append a request at the tail (R64). -/
def State.append (s : State) (d : DriveNo) (r : Request) : State :=
  { s.updDrive d (fun dr => { dr with queue := dr.queue ++ [{ r with id := s.nextRequest }] }) with
      nextRequest := s.nextRequest + 1 }

/-- Place an AUTO-REASSIGN in its drive queue, which has room: a selection event (R142 a). -/
def State.placeAuto (s : State) (d : DriveNo) (x : Deferred) : State :=
  (s.append d { id := 0, issuer := none, kind := .autoReassign, start := x.track.addr 0, count := 32,
                histKey := some x.key }).selectionEvent d

/-- Place or defer an AUTO-REASSIGN by the room in the queue (R142). -/
def State.askAuto (s : State) (d : DriveNo) (x : Deferred) : State :=
  if (s.drive d).queue.length < Config.queueLimit then s.placeAuto d x
  else s.updDrive d (fun dr => { dr with deferred := dr.deferred ++ [x] })

/-- A freed place of a full queue takes the oldest deferred AUTO-REASSIGN while the mode is ONLINE (R64, R142). -/
def State.refill (s : State) (d : DriveNo) : State :=
  match s.mode, (s.drive d).deferred with
  | .online, x :: rest => (s.updDrive d (fun dr => { dr with deferred := rest })).placeAuto d x
  | _, _ => s

/-- A request leaves the queue; the requests behind close up (R64). Prompts the patrol check when the queue empties
(R145) and refills a place freed in a full queue (R142). The refill belongs to the step that frees the place, so case a)
of R64's race of a placement and an order is the only one (log entry 15). -/
def State.leave (s : State) (d : DriveNo) (id : Nat) : State :=
  let q := (s.drive d).queue
  if q.any (fun r => r.id == id) then
    let q' := q.filter (fun r => r.id != id)
    let s' := s.updDrive d (fun dr => { dr with
      queue := q', patrolEvent := dr.patrolEvent || q'.isEmpty,
      successor := if dr.successor = some id then none else dr.successor })
    if q.length = Config.queueLimit then s'.refill d else s'
  else s

/-- The patrol timer at the interval, or stopped when it is 0 (R144). -/
def Settings.patrolStart (st : Settings) : PatrolTimer :=
  if st.patrolInterval = 0 then .stopped else .running (st.patrolInterval * 100)

/-- The next logical track of the patrol cursor (R146 a). -/
def nextCursor (ty : DriveType) (t : Track) : Track :=
  let n := t.number + 1
  if n < ty.firstAlternate * 12 then Track.ofNumber n else ⟨0, 0⟩

/-- A PATROL leaves its queue: the cursor moves or stays, the timer restarts (R146). A drive that is not due needs no
patrol check (R145). One that became due while its PATROL waited, EDIT SETTINGS having restarted the timer, stays due (R144)
and may take the next PATROL at once, where R146 has it an interval later: the model's choice (log entry 19). -/
def State.patrolLeaves (s : State) (d : DriveNo) (id : Nat) (advance : Bool) : State :=
  (s.leave d id).updDrive d (fun dr => { dr with
    cursor := if advance then nextCursor dr.type dr.cursor else dr.cursor,
    patrolTimer := s.settings.patrolStart, patrolEvent := dr.patrolEvent && dr.patrolDue })

/-! ### Error history -/

/-- Clear SPARE-PENDING on the entry of a drive's physical track (R143). -/
def State.clearPending (s : State) (d : DriveNo) (t : Track) : State :=
  { s with history := s.history.map (fun e => if e.drive = d ∧ e.track = t then { e with sparePending := false } else e) }

/-- Remove the entry of a drive's physical track (R131, step 3). -/
def State.forgetTrack (s : State) (d : DriveNo) (t : Track) : State :=
  { s with history := s.history.filter (fun e => !(e.drive == d && e.track == t)) }

/-- Clear SPARE-PENDING for an AUTO-REASSIGN's own history entry (R143), the one of its physical track. After READ HISTORY with
the clear option that may be a fresh entry which has asked for an AUTO-REASSIGN of its own, where R137 has such a step find no
entry: the model's choice (log entry 21). -/
def State.clearKey (s : State) (d : DriveNo) (key : Option Track) : State :=
  match key with
  | some t => s.clearPending d t
  | none => s

/-! ### Ends and removals of requests -/

/-- Remove a host request silently: its reservation is freed, its tag leaves use with it (R154). -/
def State.removeSilently (s : State) (d : DriveNo) (r : Request) : State :=
  let s := s.leave d r.id
  match r.issuer with
  | some i => s.unreserve i.host
  | none => s

/-- A host request ends with its completion; one marked for removal is removed silently (R83, R129 e, R41 d). -/
def State.endHost (s : State) (d : DriveNo) (r : Request) (c : Completion) : State :=
  if r.marked then s.removeSilently d r
  else match r.issuer with
    | some i => (s.placeCompletion i.host c).leave d r.id
    | none => s.leave d r.id

/-- The first sector of the range not done, none when every sector is done (R102). A request that an event ends after its
last sector has finished has no such sector, and its completion then carries no failing address (log entry 17). -/
def Request.failing (r : Request) : Option Addr :=
  if r.kind.wholeTrack || decide (r.done < r.count) then some r.next else none

/-- The completion of a request that ends with a status of an event: its sectors done and its failing address (R102). -/
def Request.completion (r : Request) (d : DriveNo) (st : Status) : Completion :=
  { tag := (match r.issuer with | some i => i.tag | none => 0), drive := d, status := st,
    done := if r.kind.wholeTrack then 0 else r.done, addr := r.failing }

/-- Status, class and address of a request whose every sector finished (R103). -/
def Request.finished (r : Request) (d : DriveNo) : Completion :=
  let c := r.completion d .complete
  match r.markT, r.markC with
  | some a, _ => { c with status := .completeRecovered, cls := some .t, addr := some a }
  | none, some a => { c with status := .completeRecovered, cls := some .c, addr := some a }
  | none, none => { c with addr := none }

/-- The member of a closed chain at a position. -/
def Drive.member? (dr : Drive) (id pos : Nat) : Option Request :=
  dr.queue.find? (fun r => r.chain == some ⟨id, pos⟩)

/-- The later members of a chain end CHAIN-CANCELLED in chain order (R35 b). -/
def State.cancelMembers (s : State) (d : DriveNo) (id : Nat) (positions : List Nat) : State :=
  positions.foldl (fun s pos =>
    match (s.drive d).member? id pos with
    | some r => s.endHost d r { r.completion d .chainCancelled with done := 0, addr := none }
    | none => s) s

/-- A chain member that ended with a completion releases its successor or cancels the later members (R35). -/
def State.chainGoesOn (s : State) (d : DriveNo) (r : Request) (st : Status) : State :=
  match r.chain with
  | none => s
  | some c =>
    if st = .complete ∨ st = .completeRecovered then
      match (s.drive d).member? c.id (c.pos + 1) with
      | some m =>
        (s.updRequest d m.id (fun m => { m with state := .queued })).updDrive d
          (fun dr => { dr with successor := some m.id, selEvent := true })
      | none => s
    else s.cancelMembers d c.id ((List.range 9).filter (fun p => decide (c.pos < p)))

/-- A host request ends by its own work or by an event that reaches it alone: completion, then its chain (R83). -/
def State.endWithChain (s : State) (d : DriveNo) (r : Request) (c : Completion) : State :=
  let s' := s.endHost d r c
  if r.marked then s' else s'.chainGoesOn d r c.status

/-- Discard the open chain of a link: its members leave without completions, wait a) ends (R34). -/
def State.discardChain (s : State) (l : Link) : State :=
  match (s.link l).chain with
  | none => s
  | some c =>
    let members := (s.drive c.drive).queue.filter (fun r => match r.chain with | some x => x.id == c.id | none => false)
    let s := members.foldl (fun s r => s.removeSilently c.drive r) s
    s.updLink l (LinkPort.dropChain s.stallLimit)

/-- A link port whose chain names a drive whose work has ended loses the chain (R34 f); its members are gone. -/
def State.dropChainsOf (s : State) (d : DriveNo) : State :=
  Link.all.foldl (fun s l =>
    match (s.link l).chain with
    | some c => if c.drive = d then s.discardChain l else s
    | none => s) s

/-! ### Drive states -/

/-- The four states in which the orientation timer runs (R14) and a known slot is kept (R3). -/
def DriveState.turning : DriveState → Bool
  | .ready | .moving | .orienting | .transferring => true
  | _ => false

/-- A drive enters a state: the orientation timer starts on entry to the four turning states and stops on leaving
them (R14); outside them position and slot are unknown and no seek is recorded (R3, 01_drives section 1.3); fault
cause and incompatibility reason live only in their own states. Entering ORIENTING meets a known slot afresh (R78 a). -/
def Drive.enter (st : DriveState) (dr : Drive) : Drive :=
  { dr with
    state := st
    orientTimer := if st.turning then (if dr.state.turning then dr.orientTimer else some Config.orientTimeout) else none
    pos := if st.turning then dr.pos else none
    slot := if st.turning then dr.slot else none
    seekTarget := if st.turning then dr.seekTarget else none
    pointMet := dr.pointMet && st != .orienting
    cause := if st = .faulted then dr.cause else none
    reason := if st = .incompatible then dr.reason else none
    selEvent := dr.selEvent || st == .ready
    patrolEvent := dr.patrolEvent || st == .ready }

/-- Send an order on the string bus. -/
def Drive.send (o : BusOrder) (dr : Drive) : Drive := { dr with sent := dr.sent ++ [o] }

/-- RECALIBRATE is ordered: the drive is RECALIBRATING and the seek timer runs (R13). -/
def Drive.recalibrate (dr : Drive) : Drive :=
  { (dr.enter .recalibrating).send .recalibrate with seekTimer := some Config.seekTimeout }

/-- A SEEK is issued: target recorded, seek timer started, drive MOVING (R10). -/
def Drive.seek (t : Track) (dr : Drive) : Drive :=
  { (dr.enter .moving).send (.seek t) with seekTarget := some t, seekTimer := some Config.seekTimeout }

/-- SPIN-UP is ordered and the drive is STARTING (R5). -/
def Drive.spinUp (dr : Drive) : Drive := { (dr.enter .starting).send .spinUp with seekTimer := none }

/-- The drive is FAULTED with a cause; its timers stop (R15). -/
def Drive.toFaulted (c : Cause) (dr : Drive) : Drive :=
  { dr.enter .faulted with cause := some c, seekTimer := none, recalDue := false }

/-- The drive is INCOMPATIBLE with a reason (R6, R7). -/
def Drive.toIncompatible (r : Reason) (dr : Drive) : Drive :=
  { dr.enter .incompatible with reason := some r, seekTimer := none }

/-- The result of the binding check of a record against a map (R7): the map (adopted where it was unbound), and the
reason of a failure. -/
def bindingCheck (m : SpareMap) (serial : Fin 1000000) (ty : DriveType) : SpareMap × Option Reason :=
  match m.bound with
  | none => ({ m with bound := some (serial, ty) }, none)
  | some (n, t) =>
    if n ≠ serial then (m, some .serial) else if t ≠ ty then (m, some .type) else (m, none)

/-- The arm is freed: no arm target, and the drive is READY when it was orienting or transferring (R80, R83). -/
def Drive.freeArm (dr : Drive) : Drive :=
  let dr := { dr with armTarget := none }
  if dr.state = .orienting ∨ dr.state = .transferring then dr.enter .ready else dr

/-! ### Engines -/

/-- The engine that serves a drive's work. -/
def State.engineOn (s : State) (d : DriveNo) : Option EngineNo :=
  EngineNo.all.find? (fun e => match (s.engine e).service with | some v => v.drive == d | none => false)

/-- The engine is free (R86). -/
def Engine.isFree (g : Engine) : Bool := g.service.isNone

/-- The engine whose transfer exchange a link carries. -/
def State.engineOnLink (s : State) (l : Link) : Option EngineNo :=
  match (s.link l).exchange with
  | some (.transfer e _ _) => some e
  | _ => none

/-- Release an engine: the marks go back to the request, the record is idle, the transfer exchange ends (R85, R86,
R26). A RECALIBRATE that waited for the release is ordered (R19). -/
def State.release (s : State) (e : EngineNo) : State :=
  let g := s.engine e
  match g.service with
  | none => s
  | some v =>
    let s := s.updRequest v.drive v.request (fun r => { r with markC := g.markC, markT := g.markT })
    let s := s.updEngine e (fun _ => Engine.idle)
    let s := match v.link with
      | some l => s.endExchange l
      | none => s
    if (s.drive v.drive).recalDue then s.updDrive v.drive (fun dr => { dr.recalibrate with recalDue := false }) else s

/-- Every drive queue is empty and the track buffer FREE (R162). -/
def State.drained (s : State) : Bool :=
  DriveNo.all.all (fun d => (s.drive d).queue.isEmpty) && s.copy.isNone

/-- The drain test (R162): in DRAINING, not while a STRING RESET's engines are finishing. -/
def State.drainTest (s : State) : State :=
  if s.mode = .draining ∧ s.resetting = false ∧ s.drained = true then
    let s := { s with mode := .quiesced }
    match s.authorityHost with
    | some h => s.tell h (.mode .quiesced)
    | none => s
  else s

/-- The engines of a STRING RESET have all been released: DRAINING becomes QUIESCED without a notice (R172 step 7). -/
def State.resetDone (s : State) : State :=
  if s.resetting ∧ EngineNo.all.all (fun e => (s.engine e).ending != some .stringReset) = true then
    { s with resetting := false, mode := if s.mode = .draining ∧ s.drained = true then .quiesced else s.mode }
  else s

end Sys2Proof.Machine
end

