-- ==== Sys2Proof/Machine/Work.lean ====
section
/-! DEFINITION. The work inside a command: the copies of the reassignment unit (R124 to R136), selection and
positioning (R68 to R77), the ends of engine work (R38, R81, R101, R104), the ends of a drive's work (R16) and the
settling of a command's selection events, patrol checks, drain test and report delivery. -/
namespace Sys2Proof.Machine

/-! ### Copies -/

/-- The request carries the copy in progress. -/
def State.ownCopy (s : State) (id : Nat) : Option CopyRecord :=
  match s.copy with
  | some c => if c.request = id then some c else none
  | none => none

/-- The validity set of the entry of a logical track; all sectors where it has no entry (R107). -/
def State.validOf (s : State) (d : DriveNo) (t : Track) : SectorSet :=
  match (s.drive d).map.entry? t with
  | some e => e.state.valid
  | none => SectorSet.all

/-- The validity set of the entry being copied. -/
def State.copyValid (s : State) (c : CopyRecord) : SectorSet := s.validOf c.drive c.logical

/-- The sectors the present phase of a copy has still to read or write (R127, R128). -/
def State.copyLeft (s : State) (c : CopyRecord) : SectorSet :=
  match c.phase with
  | .read => c.toRead &&& ~~~(c.captured ||| c.unrecovered)
  | .write => c.captured &&& ~~~(s.copyValid c)

/-- The physical track the present phase of a copy works on (R72, R127, R128). -/
def State.copyTrack (s : State) (c : CopyRecord) : Track :=
  match c.phase with
  | .read => c.source
  | .write => altTrack (s.drive c.drive).type c.dest

/-- The current physical track of a request (R65 c, R72). -/
def State.requestTrack (s : State) (d : DriveNo) (r : Request) : Track :=
  match s.ownCopy r.id with
  | some c => s.copyTrack c
  | none => s.translate d r.next.track

/-- The next sector of a request on its track (R65 b, R72). -/
def State.requestSector (s : State) (r : Request) : Nat :=
  match s.ownCopy r.id with
  | some c => (SectorSet.lowest (s.copyLeft c)).getD 0
  | none => r.next.sector

/-- The buffer is released: a selection event on every drive with a reassignment in QUEUED (R68 f). -/
def State.bufferFree (s : State) : State :=
  { s with
    copy := none
    drives := s.drives.map (fun dr =>
      if dr.queue.any (fun r => r.kind.reassigns && r.state == .queued) then { dr with selEvent := true } else dr) }

/-- HELD requests whose next logical track was copied return to QUEUED (R82). -/
def State.unhold (s : State) (d : DriveNo) (t : Track) : State :=
  let back : Request → Bool := fun r => r.state == .held && r.next.track == t
  if (s.drive d).queue.any back then
    s.updDrive d (fun dr => { dr with
      queue := dr.queue.map (fun r => if back r then { r with state := .queued } else r), selEvent := true })
  else s

/-- The completion of a REASSIGN whose copy has left a validity set (R132 a, R135 a). -/
def Request.afterCopy (r : Request) (d : DriveNo) (st : Status) (v : SectorSet) : Completion :=
  { r.completion d st with
    done := SectorSet.size v
    addr := (SectorSet.lowest (~~~v)).map (fun k => r.start.track.addr k)
    voids := if st = .reassigned then some (32 - SectorSet.size v) else none }

/-- Steps 1 to 5 of the end of a copy (R131). -/
def State.settleCopy (s : State) (c : CopyRecord) : State :=
  let v := s.copyValid c
  let s := s.updDrive c.drive (fun dr =>
    match dr.map.entry? c.logical with
    | none => dr
    | some e =>
      let m := if c.form = .new then dr.map.setAlts e.retained .retired else dr.map
      { dr with map := m.updEntry c.logical (fun e =>
          { e with state := settledState v, retained := if c.form = .new then [] else e.retained }) })
  let s := s.forgetTrack c.drive c.source
  let autos := (s.drive c.drive).queue.filter (fun r =>
    r.kind == .autoReassign && r.id != c.request && r.start.track == c.logical)
  let s := s.updDrive c.drive (fun dr => { dr with deferred := dr.deferred.filter (fun x => x.track != c.logical) })
  let s := autos.foldl (fun s r => s.leave c.drive r.id) s
  (s.bufferFree).unhold c.drive c.logical

/-- The notices at the end of a copy: SPARED, then VOID-TRACK when the entry has become VOID (R133). -/
def State.copyNotices (s : State) (c : CopyRecord) : State :=
  match (s.drive c.drive).map.entry? c.logical with
  | none => s
  | some e =>
    let voids := 32 - SectorSet.size e.state.valid
    let s := s.raiseSpared c.drive c.logical c.form e voids
    match e.state with
    | .void _ => s.raiseVoidTrack c.drive c.logical e.alt voids .copyEnd
    | _ => s

/-- The end of a copy without abort, with its requester and the arm it holds (R131, R132). -/
def State.endCopy (s : State) (c : CopyRecord) (r : Request) : State :=
  let v := s.copyValid c
  let s := s.settleCopy c
  let s := if r.kind = .reassign then s.endWithChain c.drive r (r.afterCopy c.drive .reassigned v)
    else s.leave c.drive r.id
  (s.updDrive c.drive Drive.freeArm).copyNotices c

/-- The abort of the copy (R134): the state, and the VOID-TRACK notice it brings as track, alternate and void count. -/
def State.abortCopy (s : State) (c : CopyRecord) : State × Option (Track × Nat × Nat) :=
  let v := s.copyValid c
  let alt := ((s.drive c.drive).map.entry? c.logical).map (·.alt)
  let s := s.updDrive c.drive (fun dr =>
    { dr with map := dr.map.updEntry c.logical (fun e => { e with state := settledState v }) })
  let s := if c.kind = .autoReassign then s.clearPending c.drive c.source else s
  (s.bufferFree, if v = SectorSet.all then none else alt.map (fun a => (c.logical, a, 32 - SectorSet.size v)))

/-- The VOID-TRACK notice of an abort (R135). -/
def State.abortNotice (s : State) (d : DriveNo) (x : Option (Track × Nat × Nat)) : State :=
  match x with
  | some (t, alt, voids) => s.raiseVoidTrack d t alt voids .abort
  | none => s

/-- A NEW takes the buffer and records its alternate (R124 b). -/
def State.beginNew (s : State) (d : DriveNo) (r : Request) (a : Nat) : State :=
  let dr := s.drive d
  let t := r.start.track
  let origin : Origin := if r.kind = .reassign then .host else .auto
  let source := s.translate d t
  let (m, toRead) : SpareMap × SectorSet := match dr.map.entry? t with
    | none =>
      ({ dr.map with entries := insertEntry ⟨t, a, .copying 0, [], origin, 0⟩ dr.map.entries }, SectorSet.all)
    | some e =>
      (dr.map.updEntry t (fun e => { e with
        alt := a, state := .copying 0, retained := e.retained ++ [e.alt], origin := origin,
        generation := saturate 15 (e.generation + 1) }), e.state.valid)
  { s.updDrive d (fun dr => { dr with map := m.setAlt a .assigned }) with
    copy := some ⟨r.id, r.kind, r.issuer, .new, d, t, source, a, toRead, 0, 0, .read, []⟩ }

/-- A FILL takes the buffer; the entry keeps its set (R125 b). -/
def State.beginFill (s : State) (d : DriveNo) (r : Request) (e : Entry) (v : SectorSet) : State :=
  let t := r.start.track
  { (s.updDrive d (fun dr => { dr with map := dr.map.updEntry t (fun e => { e with state := .copying v }) })).updRequest d r.id
      (fun r => { r with done := SectorSet.size v }) with
    copy := some ⟨r.id, r.kind, r.issuer, .fill, d, t, t, e.alt, ~~~v, 0, 0, .read, []⟩ }

/-! ### Positioning -/

/-- The chosen request becomes arm holder on a track: it moves there or orients at once (R10, R77). -/
def State.position (s : State) (d : DriveNo) (id : Nat) (t : Track) : State :=
  let here := (s.drive d).pos == some t
  s.updDrive d (fun dr =>
    let dr := { dr with armTarget := some t }
    if here then (dr.updRequest id (fun r => { r with state := .orienting })).enter .orienting
    else (dr.updRequest id (fun r => { r with state := .positioning })).seek t)

/-- A reassignment ends at its choice with a status (R124 a, R125 a). An AUTO-REASSIGN leaves, with SPARE-PENDING
cleared (R136 c). -/
def State.endAtChoice (s : State) (d : DriveNo) (r : Request) (st : Status) : State :=
  let s := if r.kind = .reassign then s.endWithChain d r (r.completion d st)
    else (s.leave d r.id).clearKey d r.histKey
  s.updDrive d (fun dr => { dr.freeArm with selEvent := true, patrolEvent := true })

/-- A chosen reassignment begins its copy, or ends at the choice (R124, R125, R126). -/
def State.beginCopy (s : State) (d : DriveNo) (r : Request) : State :=
  match r.form with
  | .new =>
    match (s.drive d).map.lowestFree with
    | none => s.endAtChoice d r .noAlternate
    | some a =>
      let s := s.beginNew d r a
      match s.copy with
      | some c =>
        if c.toRead = 0 then
          (s.endCopy c r).updDrive d (fun dr => { dr with selEvent := true, patrolEvent := true })
        else s.position d r.id c.source
      | none => s
  | .fill =>
    match (s.drive d).map.entry? r.start.track with
    | some e =>
      match e.state with
      | .void v => (s.beginFill d r e v).position d r.id r.start.track
      | _ => s.endAtChoice d r .state
    | none => s.endAtChoice d r .state

/-! ### Selection -/

/-- QUEUED requests whose next track is COPYING become HELD, except the copy's own (R69, R82); a PATROL is removed and
its cursor advances (R146 b). -/
def State.holdForCopy (s : State) (d : DriveNo) : State :=
  let meets : Request → Bool := fun r =>
    r.state == .queued && (s.drive d).map.isCopying r.next.track && (s.ownCopy r.id).isNone
  let patrols := (s.drive d).queue.filter (fun r => meets r && r.kind == .patrol)
  let s' := s.updDrive d (fun dr =>
    { dr with queue := dr.queue.map (fun r => if meets r then { r with state := .held } else r) })
  patrols.foldl (fun s r => s.patrolLeaves d r.id true) s'

/-- The conditions a) to c) of eligibility (R69). -/
def State.maySelect (s : State) (r : Request) : Bool :=
  r.state == .queued &&
    (match r.issuer with | some i => s.reachable i.host | none => true) &&
    (!r.kind.reassigns || s.copy.isNone || (s.ownCopy r.id).isSome)

/-- The eligible requests, oldest first (R69): a PATROL only when nothing else is. -/
def State.eligible (s : State) (d : DriveNo) : List Request :=
  let q := (s.drive d).queue.filter (fun r => s.maySelect r)
  let others := q.filter (fun r => r.kind != ReqKind.patrol)
  if others.isEmpty then q else others

/-- The profile of a drive type (R72 c); an empty one before any is installed. -/
def State.profile (s : State) : DriveType → Profile
  | .d40 => s.profile40.getD ⟨[], 0⟩
  | .d80 => s.profile80.getD ⟨[], 0⟩

/-- The score of a request on its drive (R76). -/
def State.score (s : State) (d : DriveNo) (r : Request) : Nat :=
  let dr := s.drive d
  let e := estimate (s.profile dr.type) s.settings (dr.pos.getD ⟨0, 0⟩) dr.slot (s.requestTrack d r) (s.requestSector r)
  scoreOf s.settings e r.passes

/-- The first of least score (R70: the older at equal scores). -/
def leastScore (score : Request → Nat) : List Request → Option Request
  | [] => none
  | r :: rest =>
    match leastScore score rest with
    | none => some r
    | some b => if score b < score r then some b else some r

/-- The host of a request. -/
def Request.host (r : Request) : Option HostNo := r.issuer.map (·.host)

/-- The choice among the eligible requests (R70). A pass count above P, which EDIT SETTINGS completed after a RESUME can bring
about, where R67 has no request under two values of P, counts as P: the model's choice (log entry 19). -/
def State.choose (s : State) (d : DriveNo) (el : List Request) : Option Request :=
  let dr := s.drive d
  match dr.successor.bind (fun id => el.find? (fun r => r.id == id)) with
  | some r => some r
  | none =>
    match el.find? (fun r => decide (s.settings.forced ≤ r.passes)) with
    | some r => some r
    | none =>
      let last := dr.lastHost
      let other : Request → Bool := fun r => decide (r.host = none) || decide (r.host ≠ last)
      if 0 < s.settings.rotation ∧ s.settings.rotation ≤ dr.runLength ∧
          el.any (fun r => decide (r.host ≠ none) && decide (r.host ≠ last)) = true then
        leastScore (s.score d) (el.filter other)
      else leastScore (s.score d) el

/-- Passes, last host and run length after a choice (R71). A pass count above P becomes P when it gains a pass, where R71 has it
not reduced (log entry 19). -/
def State.passUpdate (s : State) (d : DriveNo) (el : List Request) (r : Request) : State :=
  s.updDrive d (fun dr => { dr with
    queue := dr.queue.map (fun x =>
      if x.id != r.id && el.any (fun y => y.id == x.id) then
        { x with passes := saturate s.settings.forced (x.passes + 1) } else x)
    runLength := (match r.host with
      | none => dr.runLength
      | some h => if dr.lastHost = some h then saturate 15 (dr.runLength + 1) else 1)
    lastHost := (match r.host with | none => dr.lastHost | some h => some h) })

/-- A selection on a drive that is READY with no arm holder; any other drive makes none (R68 to R71, R77). -/
def State.select (s : State) (d : DriveNo) : State :=
  let s := s.updDrive d (fun dr => { dr with selEvent := false })
  if (s.drive d).state = .ready ∧ (s.drive d).holder.isNone = true then
    let s := s.holdForCopy d
    let el := s.eligible d
    let chosen := s.choose d el
    let s := s.updDrive d (fun dr => { dr with successor := none })
    match chosen with
    | none => s
    | some r =>
      let s := s.passUpdate d el r
      if r.kind.reassigns && (s.ownCopy r.id).isNone then s.beginCopy d r
      else s.position d r.id (s.requestTrack d r)
  else s

/-- The patrol check (R144, R145). From the placement on the timer is expired and does not run; it is already so but after a
restart that left the drive due (log entry 19). -/
def State.patrolCheck (s : State) (d : DriveNo) : State :=
  let dr := s.drive d
  let s := s.updDrive d (fun dr => { dr with patrolEvent := false })
  if dr.patrolDue = true ∧ s.settings.patrolInterval ≠ 0 ∧ (s.driveSettings d).patrol = true ∧ s.mode = .online ∧
      dr.queue = [] ∧ dr.state = .ready then
    let t : Track := if dr.cursor.cyl < dr.type.firstAlternate then dr.cursor else ⟨0, 0⟩
    ((s.updDrive d (fun dr => { dr with cursor := t, patrolTimer := .expired, patrolDue := false })).append d
      { id := 0, issuer := none, kind := .patrol, start := t.addr 0, count := 32 }).selectionEvent d
  else s

/-! ### Settling a command -/

/-- Drives in ascending order from one of them. -/
def drivesFrom (d : DriveNo) : List DriveNo :=
  DriveNo.all.drop d.toNat ++ DriveNo.all.take d.toNat

/-- A drive has a selection event outstanding and a reassignment waiting for the track buffer. -/
def Drive.contends (dr : Drive) : Bool :=
  dr.selEvent && dr.state == .ready && dr.holder.isNone &&
    dr.queue.any (fun r => r.kind.reassigns && r.state == .queued)

/-- The order in which drives make their selections: ascending, but where two drives contend for a FREE track buffer
(R84 d) it begins at a drive that is a free value (log entry 7). -/
def State.selectionOrder (s : State) : List DriveNo × State :=
  if s.copy.isNone && decide (1 < (DriveNo.all.filter (fun d => (s.drive d).contends)).length) then
    (drivesFrom (Config.firstDrive s.freeCount), { s with freeCount := s.freeCount + 1 })
  else (DriveNo.all, s)

/-- Make the selections of all selection events, one drive at a time, until none is outstanding. The bound exceeds
what a command can raise: every selection that raises further events ends a request. -/
def State.selections : Nat → State → State
  | 0, s => s
  | n + 1, s =>
    let (order, s') := s.selectionOrder
    match order.find? (fun d => (s'.drive d).selEvent) with
    | none => s
    | some d => State.selections n (s'.select d)

/-- The patrol checks prompted by a command (R145). -/
def State.patrolChecks (s : State) : State :=
  DriveNo.all.foldl (fun s d => if (s.drive d).patrolEvent then s.patrolCheck d else s) s

/-- What follows within a command once its own effect stands: selections (R68), patrol checks (R145) with the
selections they bring, the drain test (R162), and report delivery (R157). -/
def State.settle (s : State) : State :=
  let s := State.selections 2000 s
  let s := State.selections 2000 s.patrolChecks
  s.drainTest.deliverAll

/-! ### The end of an engine's work -/

/-- A request ends in TRANSFERRING or at its last track end (R83): engine, completion, chain, arm. -/
def State.endTransfer (s : State) (e : EngineNo) (v : Service) (completion : Request → Completion) : State :=
  let s := s.release e
  let s := match (s.drive v.drive).request? v.request with
    | some r => if v.kind = ReqKind.patrol then s.patrolLeaves v.drive r.id true else s.endWithChain v.drive r (completion r)
    | none => s
  s.updDrive v.drive Drive.freeArm

/-- A track end with sectors remaining (R81): translated afresh, held, or moved to the next arm target. -/
def State.nextTrack (s : State) (d : DriveNo) (r : Request) : State :=
  if (s.drive d).map.isCopying r.next.track && (s.ownCopy r.id).isNone then
    (s.updRequest d r.id (fun r => { r with state := .held })).updDrive d Drive.freeArm
  else s.position d r.id (s.requestTrack d r)

/-- The track end of a host data order (R81, R83). -/
def State.trackEnd (s : State) (e : EngineNo) : State :=
  match (s.engine e).service with
  | none => s
  | some v =>
    match (s.drive v.drive).request? v.request with
    | none => (s.release e).updDrive v.drive Drive.freeArm
    | some r =>
      if r.count ≤ r.done then s.endTransfer e v (fun r => r.finished v.drive)
      else
        let s := s.release e
        match (s.drive v.drive).request? v.request with
        | some r => s.nextTrack v.drive r
        | none => s

/-- The engine works for the copy in progress. -/
def State.engineCopy (s : State) (v : Service) : Option CopyRecord :=
  if v.kind.reassigns then s.ownCopy v.request else none

/-- The sector boundary of an engine whose work an event ends (R38, R104): release, then the request ends, or is
removed, by the rule of the event. With the state, the VOID-TRACK notice of a copy it aborts (R135). -/
def State.boundaryWith (s : State) (e : EngineNo) : State × Option (Track × Nat × Nat) :=
  let g := s.engine e
  match g.service, g.ending with
  | some v, some ending =>
    let (s, void) : State × Option (Track × Nat × Nat) := match ending, s.engineCopy v with
      | .offline, some c => s.abortCopy c
      | .stringReset, some c => s.abortCopy c
      | _, _ => (s, none)
    let valid := s.validOf v.drive v.logical
    let s := s.release e
    let s := match (s.drive v.drive).request? v.request with
      | none => s
      | some r =>
        match ending with
        | .failing st => s.endWithChain v.drive r (r.completion v.drive st)
        | .event st => s.endWithChain v.drive r (r.completion v.drive st)
        | .offline =>
          match v.kind with
          | .patrol => s.patrolLeaves v.drive r.id false
          | .autoReassign => (s.leave v.drive r.id)
          | .reassign => s.endHost v.drive r (r.afterCopy v.drive .driveOffline valid)
          | _ => s.endHost v.drive r (r.completion v.drive .driveOffline)
        | .stringReset => s
    let s := s.updDrive v.drive (fun dr =>
      if dr.state = .transferring then dr.freeArm
      else if (dr.request? v.request).isNone then { dr with armTarget := none } else dr)
    (s.resetDone, void)
  | _, _ => (s, none)

/-- The sector boundary with its notice, which follows the completions (R135). -/
def State.boundary (s : State) (e : EngineNo) : State :=
  match (s.engine e).service with
  | some v => (s.boundaryWith e).1.abortNotice v.drive (s.boundaryWith e).2
  | none => s

/-- The buffer that holds a sector empties. -/
def Buffer.without (k : Nat) (b : Buffer) : Buffer :=
  match b with
  | .full j _ => if j = k then .empty else b
  | _ => b

/-- The buffer of an engine that holds a sector empties (R87, R88 a). -/
def Engine.emptied (k : Nat) (g : Engine) : Engine := { g with buf1 := g.buf1.without k, buf2 := g.buf2.without k }

/-- Checked sectors of a READ still stand in the buffers (R18, R101). -/
def Engine.holdsSectors (g : Engine) : Bool :=
  match g.buf1, g.buf2 with
  | .full _ _, _ => true
  | _, .full _ _ => true
  | _, _ => false

/-- A READ under DRIVE OFFLINE or at a failing sector has checked sectors to drain (R18, R101). -/
def Engine.drains (g : Engine) : Bool :=
  (match g.ending with | some .offline => true | some (.failing _) => true | _ => false) &&
    (match g.service with | some v => v.kind == .read | none => false) && !g.cut && g.holdsSectors

/-- The engine reads no further sector and drains the checked ones: FLUSHING, with no current sector and so no failed reads of
one (R85, R89, R101). -/
def Engine.flush (g : Engine) : Engine :=
  { g with phase := .flushing, retry := 0, service := g.service.map (fun v => { v with current := none }) }

/-- The engine's checked sectors are drained in FLUSHING. -/
def State.drain (s : State) (e : EngineNo) : State := s.updEngine e Engine.flush

/-- The work of an engine that has an ending and no sector under the head: it drains first, or ends now (R104). -/
def State.stopOrDrain (s : State) (e : EngineNo) : State := if (s.engine e).drains then s.drain e else s.boundary e

/-- The ending an event leaves on an engine: a stronger earlier one stands (log entry 12). -/
def Engine.keeps (g : Engine) (ending : Ending) : Ending :=
  match g.ending, ending with
  | some .stringReset, _ => .stringReset
  | some .offline, .event _ => .offline
  | some (.event st), .event _ => .event st
  | _, x => x

/-- The ending is recorded. -/
def State.endsAt (s : State) (e : EngineNo) (ending : Ending) : State :=
  s.updEngine e (fun g => { g with ending := some (g.keeps ending) })

/-- An event ends an engine's work (R38, R104): its ending is recorded, and the work stops now unless a sector is under
the head. -/
def State.interrupt (s : State) (e : EngineNo) (ending : Ending) : State :=
  if (s.engine e).phase = .streaming then s.endsAt e ending else (s.endsAt e ending).stopOrDrain e

/-- DRIVE OFFLINE reaches the engine of the drive (R18): as `interrupt`, with the VOID-TRACK notice of a copy it aborts now
kept apart, since the event's DRIVE-STATE notice comes before it (log entry 10). -/
def State.interruptOffline (s : State) (e : EngineNo) : State × Option (Track × Nat × Nat) :=
  let t := s.endsAt e .offline
  if (s.engine e).phase = .streaming then (t, none)
  else if (t.engine e).drains then (t.drain e, none) else t.boundaryWith e

/-- A link event or a stall ends a transfer: no further frame is offered on its link, and no wait of the transfer runs (R38).
A LINK-BUSY answer on the link is bounded by wait a) of an open chain when the exchange ends now, else by g) (R36). -/
def State.cutTransfer (s : State) (e : EngineNo) (ending : Ending) : State :=
  let s := s.updEngine e (fun g => { g with cut := true })
  match (s.engine e).service.bind (·.link) with
  | some l =>
    ((s.updLink l (fun p => p.withdraw.stopWait)).interrupt e ending).updLink l (fun p =>
      LinkPort.boundBusy s.stallLimit (LinkPort.pump s.stallLimit p))
  | none => s.interrupt e ending

/-! ### The end of a drive's work -/

/-- One request ends by a drive event (R16 a, e, f, g); the AUTO-REASSIGN of an aborted copy has its flag cleared by
the abort (R134). -/
def State.endByDrive (s : State) (d : DriveNo) (st : Status) (copied : Option (Nat × SectorSet)) (r : Request) : State :=
  match r.kind with
  | .patrol => s.patrolLeaves d r.id false
  | .autoReassign => match copied with
    | some (id, _) => if id = r.id then s.leave d r.id else (s.leave d r.id).clearKey d r.histKey
    | none => (s.leave d r.id).clearKey d r.histKey
  | _ => match copied with
    | some (id, v) => s.endHost d r (if id = r.id then r.afterCopy d st v else r.completion d st)
    | none => s.endHost d r (r.completion d st)

/-- Drop the deferred AUTO-REASSIGNs of a drive, clearing their flags (R16 h). A drive that is lost from OFFLINE, or taken
OFFLINE or FAULTED from a state that holds no requests, loses its deferred tracks as well, where R16 h) reaches READY to
RECALIBRATING alone (log entry 23). -/
def State.dropDeferred (s : State) (d : DriveNo) : State :=
  let xs := (s.drive d).deferred
  xs.foldl (fun s x => s.clearPending d x.key) (s.updDrive d (fun dr => { dr with deferred := [] }))

/-- Abort the copy of a drive, unless its engine is to reach a sector boundary first (R134 a). -/
def State.abortOn (s : State) (d : DriveNo) (waits : Option Nat) :
    State × Option (Track × Nat × Nat) × Option (Nat × SectorSet) :=
  match s.copy with
  | some c =>
    if c.drive = d ∧ waits ≠ some c.request then
      let v := s.copyValid c
      let (s, n) := s.abortCopy c
      (s, n, some (c.request, v))
    else (s, none, none)
  | none => (s, none, none)

/-- Requests of a drive end by a drive event, in the order given, and chains that name the drive go (R16, R34 f). A REASSIGN
marked for removal gives up its reservation at its own place among them, and the GAP that may follow stands there: no rule
places it (log entry 12). -/
def State.endAll (s : State) (d : DriveNo) (st : Request → Status) (copied : Option (Nat × SectorSet)) (rs : List Request) :
    State :=
  (rs.foldl (fun s r => s.endByDrive d (st r) copied r) s).dropChainsOf d

/-- A drive leaves service at once, to FAULTED or ABSENT (R16, R17, R86 d): engine released, copy aborted (R134 a),
requests ended oldest first. An arm holder that DRIVE OFFLINE was ending keeps its status (R18). A request or a deferred track
left on a drive in OFFLINE, STARTING or INCOMPATIBLE goes too (log entry 23). -/
def State.endWorkNow (s : State) (d : DriveNo) (st : Status) : State × Option (Track × Nat × Nat) :=
  let s := s.dropDeferred d
  let finishing : Option Nat := (s.engineOn d).bind (fun e =>
    match (s.engine e).ending, (s.engine e).service with
    | some .offline, some v => some v.request
    | _, _ => none)
  let s := s.updDrive d (fun dr => { dr with recalDue := false })
  let (s, void, copied) := s.abortOn d none
  let s := match s.engineOn d with
    | some e => (s.release e).resetDone
    | none => s
  let s := s.endAll d (fun r => if finishing = some r.id then .driveOffline else st) copied (s.drive d).queue
  (s.updDrive d (fun dr => { dr with successor := none, armTarget := none }), void)

/-- A drive is taken OFFLINE (R16, R18): an engine goes on to its sector boundary, everything else ends now, on a drive in
STARTING or INCOMPATIBLE as well (log entry 23). -/
def State.endWorkOffline (s : State) (d : DriveNo) : State × Option (Track × Nat × Nat) :=
  let s := s.dropDeferred d
  let s := s.updDrive d (fun dr => { dr with recalDue := false })
  let serving : Option Nat := (s.engineOn d).bind (fun e => (s.engine e).service.map (·.request))
  let (s, void, copied) := s.abortOn d serving
  let s := s.endAll d (fun _ => .driveOffline) copied ((s.drive d).queue.filter (fun r => decide (serving ≠ some r.id)))
  (s.updDrive d (fun dr => { dr with
      successor := none, armTarget := if serving.isSome then dr.armTarget else none }), void)

/-- A drive event that takes the drive out of service for good of its requests (R15, R16, R17): `change` sets the new
state. Completions come first, then DRIVE-STATE, then the VOID-TRACK of an aborted copy (log entry 10). -/
def State.driveDown (s : State) (d : DriveNo) (st : Status) (change : Drive → Drive) : State :=
  let old := (s.drive d).state.condition
  let (s, void) := s.endWorkNow d st
  (((s.updDrive d change).noticeCondition d old).abortNotice d void).settle

end Sys2Proof.Machine
end

