-- ==== Sys2Proof/Machine/Layout.lean ====
section
/-! DEFINITION. Byte layouts of what the controller sends: frames (section 11.1) and the images of its read-outs and
answers (section 11.2). A field that holds nothing carries 255 in a byte and 65535 in a cylinder; unused bytes are
zero (R175; log entry 9 for what the rules leave open). -/
namespace Sys2Proof.Machine

/-- One byte. -/
def b8 (n : Nat) : List Byte := [BitVec.ofNat 8 n]
/-- Two bytes, most significant first. -/
def b16 (n : Nat) : List Byte := [BitVec.ofNat 8 (n / 256), BitVec.ofNat 8 n]
/-- Three bytes, most significant first. -/
def b24 (n : Nat) : List Byte := [BitVec.ofNat 8 (n / 65536), BitVec.ofNat 8 (n / 256), BitVec.ofNat 8 n]
/-- Four bytes, most significant first. -/
def b32 (v : BitVec 32) : List Byte :=
  [BitVec.ofNat 8 (v.toNat / 16777216), BitVec.ofNat 8 (v.toNat / 65536), BitVec.ofNat 8 (v.toNat / 256), BitVec.ofNat 8 v.toNat]
/-- One byte, 255 for nothing. -/
def o8 (n : Option Nat) : List Byte := b8 (n.getD 255)
/-- Two bytes, 65535 for nothing. -/
def o16 (n : Option Nat) : List Byte := b16 (n.getD 65535)
/-- Three bytes, all 255 for nothing (log entry 9). -/
def o24 (n : Option Nat) : List Byte := b24 (n.getD 16777215)
/-- Zero bytes. -/
def zeros (n : Nat) : List Byte := List.replicate n 0
/-- A list filled out with zeros, or cut, to a length. -/
def fillTo (n : Nat) (xs : List Byte) : List Byte := (xs ++ zeros (n - xs.length)).take n
/-- A flag as a byte. -/
def bit8 (b : Bool) : List Byte := b8 (if b then 1 else 0)

/-- Links are written 1 to 4. -/
def Link.code (l : Link) : Nat := l.bit + 1
/-- Hosts are written 1 to 4. -/
def HostNo.code (h : HostNo) : Nat := h.bit + 1

/-- A track, cylinder and head. -/
def trackBytes (t : Option Track) : List Byte := o16 (t.map (·.cyl)) ++ o8 (t.map (·.head))

/-! ### Codes of section 11.1 and 11.2 -/

/-- Mode codes, as in MODE. -/
def Mode.code : Mode → Nat
  | .loading => 1 | .online => 2 | .draining => 3 | .quiesced => 4
/-- Condition codes, as in DRIVE-STATE. -/
def Condition.code : Condition → Nat
  | .ready => 1 | .notReady => 2 | .faulted => 3 | .offline => 4 | .absent => 5 | .incompatible => 6
/-- Drive state codes of the drive record. -/
def DriveState.code : DriveState → Nat
  | .absent => 1 | .starting => 2 | .incompatible => 3 | .recalibrating => 4 | .ready => 5 | .moving => 6
  | .orienting => 7 | .transferring => 8 | .faulted => 9 | .offline => 10
/-- Status codes, 1 to 15 in the order of R103's table. -/
def Status.code : Status → Nat
  | .complete => 1 | .completeRecovered => 2 | .dataCheck => 3 | .voidSector => 4 | .seekCheck => 5
  | .driveFault => 6 | .driveOffline => 7 | .noDrive => 8 | .chainCancelled => 9 | .linkStall => 10
  | .linkLost => 11 | .linkReset => 12 | .reassigned => 13 | .noAlternate => 14 | .state => 15
/-- Class codes. -/
def RecClass.code : RecClass → Nat
  | .c => 1 | .t => 2
/-- Form codes. -/
def Form.code : Form → Nat
  | .new => 1 | .fill => 2
/-- Origin codes of a map entry record. -/
def Origin.code : Origin → Nat
  | .loaded => 1 | .host => 2 | .auto => 3
/-- Origin codes of a SPARED notice: 1 HOST, 2 AUTO. -/
def Origin.spared : Origin → Nat
  | .auto => 2 | _ => 1
/-- Cause codes of the claim notices. -/
def ClaimCause.code : ClaimCause → Nat
  | .yield => 1 | .orphan => 2 | .break => 3 | .removed => 4
/-- Cause codes of VOID-TRACK. -/
def VoidCause.code : VoidCause → Nat
  | .copyEnd => 1 | .abort => 2
/-- Cause codes of STRING-RESET. -/
def ResetCause.code : ResetCause → Nat
  | .reset => 1 | .load => 2
/-- Refusal codes, 1 to 21. -/
def RefusalCode.code : RefusalCode → Nat
  | .unknownOrder => 1 | .format => 2 | .tagInUse => 3 | .notLoaded => 4 | .quiesced => 5 | .notQuiesced => 6
  | .unassignedLink => 7 | .authority => 8 | .noDrive => 9 | .address => 10 | .claimed => 11 | .fence => 12
  | .queueFull => 13 | .reportFull => 14 | .linkBusy => 15 | .loadBusy => 16 | .noLoad => 17 | .loadInvalid => 18
  | .editInvalid => 19 | .busyTrack => 20 | .notHeld => 21
/-- Request kind codes of a queue record. -/
def ReqKind.code : ReqKind → Nat
  | .read => 1 | .write => 2 | .verify => 3 | .update => 4 | .reassign => 5 | .patrol => 6 | .autoReassign => 7
/-- Request state codes of a queue record. -/
def ReqState.code : ReqState → Nat
  | .queued => 1 | .bound => 2 | .held => 3 | .positioning => 4 | .orienting => 5 | .transferring => 6
/-- Phase codes of an engine record. -/
def Phase.code : Phase → Nat
  | .idle => 1 | .awaiting => 2 | .streaming => 3 | .retryRevolution => 4 | .lostRevolution => 5
  | .mergeRevolution => 6 | .flushing => 7
/-- Drive type codes. -/
def DriveType.code : DriveType → Nat
  | .d40 => 1 | .d80 => 2
/-- Type codes of a capability record in the drive record. -/
def TypeCode.number : TypeCode → Nat
  | .d40 => 1 | .d80 => 2 | .unknown => 3
/-- Reason codes of the drive record. -/
def Reason.code : Reason → Nat
  | .unknownType => 1 | .serial => 2 | .type => 3
/-- Fault cause codes of the drive record. -/
def Cause.code : Cause → Nat
  | .faultLine => 1 | .recalFailed => 2 | .orientTimeout => 3 | .unsolicitedSeekCheck => 4
/-- Alternate state codes of the pool. -/
def AltState.code : AltState → Nat
  | .free => 1 | .assigned => 2 | .retired => 3
/-- Access codes of an extent. -/
def Access.code : Access → Nat
  | .read => 1 | .write => 2 | .readWrite => 3
/-- ECC mode codes of the settings image. -/
def EccMode.code : EccMode → Nat
  | .off => 1 | .detect => 2 | .correct => 3

/-- Result code and refusal code of an ANSWER. -/
def AnswerResult.bytes : AnswerResult → List Byte
  | .accepted => [1, 255]
  | .refused c => 2 :: b8 c.code
  | .complete => [3, 255]
  | .claimedWaiting => [4, 255]

/-! ### REPORT frames -/

/-- The fields of a REPORT after its string time (section 11.1, offsets 6 to 20), those that hold nothing left out. -/
structure ReportFields where
  tag : Nat := 0
  kind : Nat
  drive : Option Nat := none
  codeA : Option Nat := none
  codeB : Option Nat := none
  count : Nat := 65535
  logical : Option Track := none
  sector : Option Nat := none
  physical : Option Track := none
  host : Option Nat := none
  alt : Option Nat := none
  generation : Option Nat := none

/-- The fields each record kind uses (section 11.1). -/
def Record.fields : Record → ReportFields
  | .completion c =>
    { tag := c.tag.toNat, kind := 1, drive := some c.drive.toNat, codeA := some c.status.code,
      codeB := (match c.cls with | some k => some k.code | none => c.voids), count := c.done,
      logical := c.addr.map Addr.track, sector := c.addr.map (·.sector) }
  | .recovered tag d k a p =>
    { tag := tag.toNat, kind := 2, drive := some d.toNat, codeA := some k.code, logical := some a.track,
      sector := some a.sector, physical := some p }
  | .driveState d c => { kind := 3, drive := some d.toNat, codeA := some c.code }
  | .spared d t form alt o g v =>
    { kind := 4, drive := some d.toNat, codeA := some form.code, codeB := some o.spared, count := v,
      logical := some t, alt := some alt, generation := some g }
  | .voidTrack d t alt v c =>
    { kind := 5, drive := some d.toNat, codeA := some c.code, count := v, logical := some t, alt := some alt }
  | .suspect d p t k n =>
    { kind := 6, drive := some d.toNat, count := n, logical := t, sector := some k, physical := some p }
  | .releaseRequested d h => { kind := 7, drive := some d.toNat, host := some (HostNo.code h) }
  | .claimGranted d h c => { kind := 8, drive := some d.toNat, codeA := some c.code, host := some (HostNo.code h) }
  | .claimDropped d h c => { kind := 9, drive := some d.toNat, codeA := some c.code, host := h.map HostNo.code }
  | .mode m => { kind := 10, codeA := some m.code }
  | .stringReset c => { kind := 11, codeA := some c.code }
  | .gap n => { kind := 12, count := n }

/-- The 32 bytes of a REPORT frame (section 11.1). -/
def Report.bytes (r : Report) : List Byte :=
  let f := r.record.fields
  b8 5 ++ b8 f.tag ++ b8 f.kind ++ b24 r.time.toNat ++ o8 f.drive ++ o8 f.codeA ++ o8 f.codeB ++ b16 f.count ++
    trackBytes f.logical ++ o8 f.sector ++ trackBytes f.physical ++ o8 f.host ++ o8 f.alt ++ o8 f.generation ++ zeros 11

/-- The bytes of a frame the controller sends (section 11.1). -/
def Frame.bytes : Frame → List Byte
  | .answer x => b8 2 ++ [x.tag] ++ x.result.bytes ++ fillTo 4 x.detail ++ b16 x.frames ++ fillTo 30 x.image
  | .data tag i xs => b8 3 ++ [tag] ++ b16 i ++ fillTo 512 xs
  | .transferStart tag a i => b8 4 ++ [tag] ++ b16 a.cyl ++ b8 a.head ++ b8 a.sector ++ b8 i ++ b8 0
  | .report r => r.bytes

/-- The LINK-BUSY answer of a tag (R24). -/
def linkBusyAnswer (tag : Byte) : Frame := .answer { tag := tag, result := .refused .linkBusy }

/-- The bytes of the frame that awaits acceptance on a link. -/
def Offered.bytes : Offered → List Byte
  | .frame f => f.bytes
  | .linkBusy t => (linkBusyAnswer t).bytes

/-! ### Record images -/

/-- Code kind and code value of a check record (section 11.2). -/
def CheckCode.bytes : CheckCode → List Byte
  | .completion st _ => b8 1 ++ b8 st.code
  | .spared f => b8 4 ++ b8 f.code
  | .voidTrack c => b8 5 ++ b8 c.code
  | .suspect => b8 6 ++ b8 255
  | .driveState c => b8 3 ++ b8 c.code

/-- The class of a check record's code. -/
def CheckCode.clsCode : CheckCode → Nat
  | .completion _ (some k) => k.code
  | _ => 255

/-- The 18 bytes of a check record image. -/
def CheckRecord.bytes (c : CheckRecord) : List Byte :=
  bit8 c.pending ++ (match c.code with | some k => k.bytes | none => [255, 255]) ++ o8 (c.drive.map DriveNo.toNat) ++
    trackBytes c.logical ++ o8 c.sector ++ trackBytes c.physical ++ o24 (c.time.map BitVec.toNat) ++ b8 c.overwrites ++
    b8 (match c.code with | some k => k.clsCode | none => 255) ++ zeros 2

/-- The 8 bytes of a host entry image. -/
def HostEntry.bytes (h : HostNo) (e : HostEntry) : List Byte :=
  b8 (HostNo.code h) ++ b8 e.links.toNat ++ bit8 e.authority ++
    b8 ((if e.enableC then 1 else 0) + (if e.enableT then 2 else 0) + (if e.enableS then 4 else 0) + (if e.enableE then 8 else 0)) ++
    bit8 e.inhibit ++ b8 e.watch.toNat ++ zeros 2

/-- The image of a host entry that is not in the table: no field holds anything, bytes 6 and 7 are zero (R175; log
entry 8). -/
def HostEntry.unused : List Byte := List.replicate 6 255 ++ zeros 2

/-- A fence image. -/
def fenceBytes (h : HostNo) (d : DriveNo) (xs : List Extent) : List Byte :=
  b8 (HostNo.code h) ++ b8 d.toNat ++ b8 xs.length ++
    (xs.map (fun x => b16 x.low ++ b16 x.high ++ b8 x.access.code)).flatten

/-- The 34 bytes of a profile image; every field holds nothing while no profile is installed (R175; log entry 8). -/
def profileBytes (t : DriveType) (p : Option Profile) : List Byte :=
  match p with
  | some p => fillTo 34 (b8 t.code ++ b8 p.headSwitch ++ (p.points.map (fun x => b16 x.1 ++ b16 x.2)).flatten)
  | none => List.replicate 34 255

/-- The 43 bytes of a settings image with its mark (R171); auto-spare and patrol are 0 off and 1 on (log entry 9). -/
def settingsBytes (st : Settings) (mark : Bool) : List Byte :=
  b8 st.lead ++ b8 st.aging ++ b8 st.forced ++ b8 st.rotation ++ b8 st.missLimit ++
    b8 (match st.rounding with | .chop => 1 | .round => 2) ++ b8 st.stallLimit ++ b8 st.orphanLimit ++
    b8 st.spareThreshold ++ b8 st.patrolInterval ++
    (DriveNo.all.map (fun d =>
      let x := st.perDrive.get d
      b8 x.ecc.code ++ b8 x.retries ++ bit8 x.autoSpare ++ bit8 x.patrol)).flatten ++ bit8 mark

/-- A map entry record (section 11.2). -/
def Entry.bytes (e : Entry) : List Byte :=
  b16 e.primary.cyl ++ b8 e.primary.head ++ b8 e.alt ++
    (match e.state with | .active => b8 1 | .void _ => b8 2 | .copying _ => b8 3) ++
    b8 e.origin.code ++ b8 e.generation ++ b8 e.retained.length ++
    (match e.state with | .active => zeros 4 | .void v => b32 v | .copying v => b32 v)

/-- The 1536 bytes of a spare map image (section 11.2). -/
def SpareMap.bytes (m : SpareMap) : List Byte :=
  fillTo 1536 (
    (match m.bound with
     | some (n, t) => b8 1 ++ b24 n.val ++ b8 t.code
     | none => b8 0 ++ [255, 255, 255, 255]) ++ b8 m.entries.length ++ zeros 2 ++
    fillTo 1152 (m.entries.map Entry.bytes).flatten ++ fillTo 96 (m.pool.map (fun x => BitVec.ofNat 8 x.code)) ++
    (m.entries.map (fun e => e.retained.map (fun a => BitVec.ofNat 8 a))).flatten)

/-- A history entry record (section 11.2). -/
def HistEntry.bytes (e : HistEntry) : List Byte :=
  b8 1 ++ b8 e.drive.toNat ++ b16 e.track.cyl ++ b8 e.track.head ++ b8 e.corrected ++ b8 e.retried ++ b8 e.unrecovered ++
    b8 e.lastSector ++ b24 e.firstSeen.toNat ++ b24 e.lastSeen.toNat ++
    b8 ((if e.sparePending then 1 else 0) + (if e.suspect then 2 else 0)) ++ zeros 4

/-- An entry record not in use: 0, and nothing in its other fields (R175). -/
def HistEntry.unused : List Byte := b8 0 ++ List.replicate 15 255 ++ zeros 4

/-- The READ HISTORY image (section 11.2). The entry records in use come first, in the order in which the entries were
created, a removed entry leaving no gap, which R137 leaves open (log entry 9). -/
def State.historyImage (s : State) : List Byte :=
  let lists := DriveNo.all.map (fun d => (s.drive d).deferred.map (fun x => b8 d.toNat ++ b16 x.track.cyl ++ b8 x.track.head))
  ((s.history.map HistEntry.bytes) ++ List.replicate (64 - s.history.length) HistEntry.unused).flatten ++ b8 s.overflow ++ b8 lists.flatten.length ++ lists.flatten.flatten

/-- The READ SETTINGS image: settings with their mark, both profiles, the host table, the fences that have extents
(R171; the order and the gaps are log entry 8). -/
def State.settingsImage (s : State) : List Byte :=
  settingsBytes s.settings s.settingsLoaded ++ profileBytes .d40 s.profile40 ++ profileBytes .d80 s.profile80 ++
    (HostNo.all.map (fun h => match s.host h with | some x => x.entry.bytes h | none => HostEntry.unused)).flatten ++
    (HostNo.all.map (fun h => (DriveNo.all.map (fun d =>
      let xs := (s.fences.get h).get d
      if xs.isEmpty then [] else fenceBytes h d xs)).flatten)).flatten

/-- The one DATA frame of READ SETTINGS: the image filled out with zeros, a free value when it is longer (R177). -/
def State.settingsData (s : State) : List Byte :=
  let xs := s.settingsImage
  if xs.length ≤ 512 then fillTo 512 xs else Config.settingsFrame xs

/-! ### The snapshot (R171, section 11.2) -/

/-- Snapshot header, 16 bytes. -/
def State.headerBytes (s : State) : List Byte :=
  b8 s.mode.code ++ bit8 s.staging.isSome ++ o8 (s.staging.map (fun g => Link.code g.owner)) ++ b24 s.time.toNat ++ zeros 10

/-- Link record, 8 bytes. -/
def State.linkBytes (s : State) (l : Link) : List Byte :=
  let p := s.link l
  b8 (if !p.up then 1 else if p.exchange.isNone then 2 else 3) ++ o8 ((s.owner l).map HostNo.code) ++
    b8 (match p.exchange with | none => 0 | some (.order _) => 1 | some (.transfer _ _ _) => 2 | some (.report _) => 3) ++
    bit8 p.chain.isSome ++ o8 (p.chain.map (fun c => c.drive.toNat)) ++
    b8 (match p.chain with | some c => c.members | none => 0) ++ zeros 2

/-- Drive record, 32 bytes. -/
def State.driveBytes (s : State) (d : DriveNo) : List Byte :=
  let dr := s.drive d
  b8 dr.state.code ++ b8 dr.state.condition.code ++ trackBytes dr.pos ++ o8 dr.slot ++ bit8 dr.cap.isSome ++
    o8 (dr.cap.map (fun c => TypeCode.number c.code)) ++ o24 (dr.cap.map (fun c => c.serial.val)) ++
    o8 (dr.reason.map Reason.code) ++ o8 (dr.cause.map Cause.code) ++ trackBytes dr.armTarget ++
    trackBytes (dr.armTarget.bind (fun t => reverse dr.type dr.map t)) ++ o8 (dr.lastHost.map HostNo.code) ++ b8 dr.runLength ++
    o8 (dr.claim.holder.map HostNo.code) ++ ((List.range 3).map (fun i => o8 (dr.claim.waiting[i]?.map HostNo.code))).flatten ++
    o16 (dr.claim.orphan.map (fun n => (n + 999) / 1000)) ++ b16 dr.cursor.cyl ++ b8 dr.cursor.head ++
    (match dr.patrolTimer with
     | .stopped => [1, 255]
     | .running n => b8 2 ++ b8 ((n + 99) / 100)
     | .expired => [3, 255])

/-- Queue record, 24 bytes. -/
def Request.bytes (r : Request) : List Byte :=
  b8 (match r.issuer with | some i => i.tag.toNat | none => 0) ++ o8 (r.host.map HostNo.code) ++ b8 r.kind.code ++
    b8 r.state.code ++ b16 r.start.cyl ++ b8 r.start.head ++ b8 r.start.sector ++ b8 r.count ++ b8 r.done ++ b8 r.passes ++
    b8 r.misses ++ b8 r.seekChecks ++ zeros 11

/-- Engine record, 8 bytes. -/
def Engine.bytes (g : Engine) : List Byte :=
  match g.service with
  | none => b8 0 ++ [255, 255, 255] ++ b8 g.phase.code ++ [255] ++ zeros 2
  | some v =>
    b8 1 ++ b8 v.drive.toNat ++ b8 (match v.issuer with | some i => i.tag.toNat | none => 0) ++ b8 v.kind.code ++
      b8 g.phase.code ++ o8 (v.issuer.map (fun i => HostNo.code i.host)) ++ zeros 2

/-- Copy record, 32 bytes. -/
def copyBytes (c : Option CopyRecord) : List Byte :=
  match c with
  | none => b8 1 ++ List.replicate 13 255 ++ zeros 18
  | some c =>
    b8 2 ++ b8 c.drive.toNat ++ b8 c.kind.code ++ b8 (match c.issuer with | some i => i.tag.toNat | none => 0) ++
      o8 (c.issuer.map (fun i => HostNo.code i.host)) ++ b8 c.form.code ++ trackBytes (some c.logical) ++
      trackBytes (some c.source) ++ b8 c.dest ++ b8 (match c.phase with | .read => 1 | .write => 2) ++
      b32 c.toRead ++ b32 c.captured ++ b32 c.unrecovered ++ zeros 6

/-- Host record, 8 bytes; one not in the table holds nothing but that it is neither in the table nor reachable (R175). -/
def State.hostBytes (s : State) (h : HostNo) : List Byte :=
  match s.host h with
  | none => b8 0 ++ [255, 255, 255, 255, 255] ++ b8 0 ++ zeros 1
  | some x =>
    b8 1 ++ b8 x.reserved ++ b8 x.completions ++ b8 (x.queue.length - x.completions) ++ b8 x.lost ++
      o8 (x.reportLink.map Link.code) ++ bit8 (s.reachable h) ++ zeros 1

/-- The READ SNAPSHOT image: header, links, drives, queues, engines, copy record, hosts (section 11.2). -/
def State.snapshotImage (s : State) : List Byte :=
  s.headerBytes ++ (Link.all.map s.linkBytes).flatten ++ (DriveNo.all.map s.driveBytes).flatten ++
    (DriveNo.all.map (fun d => fillTo 384 ((s.drive d).queue.map Request.bytes).flatten)).flatten ++
    (EngineNo.all.map (fun e => (s.engine e).bytes)).flatten ++ copyBytes s.copy ++ (HostNo.all.map s.hostBytes).flatten

/-- An image cut into n DATA frames, in order, the last filled out with zeros (R175). -/
def dataFrames (tag : Byte) (n : Nat) (image : List Byte) : List Frame :=
  (List.range n).map (fun i => .data tag i (fillTo 512 (image.drop (512 * i))))

end Sys2Proof.Machine
end

