-- ==== Sys2Proof/Machine/Accept.lean ====
section
/-! DEFINITION. Order acceptance: the eleven checks of R29 in their order, the mode table of R30, tags (R32), the
opening and answering of an order exchange (R24, R25, R31), and the placing of a queued order with its chain (R31 b,
R33). -/
namespace Sys2Proof.Machine

/-! ### Answers within an order exchange -/

/-- Offer further frames of the exchange in progress on a link (R22). -/
def State.offer (s : State) (l : Link) (frames : List Frame) : State :=
  s.updLink l (fun p =>
    LinkPort.boundBusy s.stallLimit (LinkPort.pump s.stallLimit { p with toSend := p.toSend ++ frames }))

/-- An ORDER taken on an IDLE link opens its exchange and ends wait a) (R25, R36 a); `holds` when the tag of an accepted
immediate order is in use until the exchange ends (R32 b). The order's own course starts the wait that follows, d) or e). -/
def State.openOrder (s : State) (l : Link) (tag : Byte) (holds : Bool) (stage : OrderStage := .answering) : State :=
  s.updLink l (fun p => { p.stopWait with exchange := some (.order ⟨tag, s.owner l, holds, stage⟩), toSend := [] })

/-- The ANSWER of a refused order (R25 a). -/
def State.refuse (s : State) (l : Link) (tag : Byte) (code : RefusalCode) (detail : List Byte := [0, 0, 0, 0]) : State :=
  s.offer l [.answer { tag := tag, result := .refused code, detail := detail }]

/-- The ANSWER COMPLETE of an immediate order with its result image (R25 c, section 11.1). -/
def State.complete (s : State) (l : Link) (tag : Byte) (image : List Byte := []) : State :=
  s.offer l [.answer { tag := tag, result := .complete, image := image }]

/-- The ANSWER COMPLETE of a read-out, and its DATA frames (R25 e, R177). -/
def State.readOut (s : State) (l : Link) (tag : Byte) (n : Nat) (image : List Byte) : State :=
  s.offer l (.answer { tag := tag, result := .complete, frames := n } :: dataFrames tag n image)

/-! ### The checks of R29 -/

/-- A refusal: its code and its detail bytes 4 to 7 (section 11.1). -/
abbrev Refused := RefusalCode × List Byte

/-- A detail with one byte, the rest zero (log entry 9). -/
def oneByte (n : Nat) : List Byte := [BitVec.ofNat 8 n, 0, 0, 0]

/-- A detail that names a logical track (section 11.1). -/
def trackDetail (t : Track) : List Byte := b16 t.cyl ++ b8 t.head ++ b8 255

/-- A detail that names a logical sector. -/
def addrDetail (a : Addr) : List Byte := b16 a.cyl ++ b8 a.head ++ b8 a.sector

/-- A request holds a tag of a host (R32 a). -/
def Request.holdsTag (h : HostNo) (tag : Byte) (r : Request) : Bool :=
  match r.issuer with
  | some i => i.host == h && i.tag == tag
  | none => false

/-- A queued report is a completion with a tag (R32 a). -/
def Report.holdsTag (tag : Byte) (r : Report) : Bool :=
  match r.record with
  | .completion c => c.tag == tag
  | _ => false

/-- A link's order exchange holds a tag of a host (R32 b). -/
def LinkPort.holdsTag (h : HostNo) (tag : Byte) (p : LinkPort) : Bool :=
  match p.exchange with
  | some (.order x) => x.holdsTag && x.host == some h && x.tag == tag
  | _ => false

/-- The tag is in use for a host (R32). -/
def State.tagInUse (s : State) (h : HostNo) (tag : Byte) : Bool :=
  DriveNo.all.any (fun d => (s.drive d).queue.any (Request.holdsTag h tag)) ||
    (match s.host h with | some x => x.queue.any (Report.holdsTag tag) | none => false) ||
    Link.all.any (fun l => (s.link l).holdsTag h tag)

/-- Check 3: the refusal of a class by the controller mode, if any (R30). -/
def modeRefusal : OrderClass → Mode → Option RefusalCode
  | .queued, .loading => some .notLoaded
  | .queued, .online => none
  | .queued, .draining => some .quiesced
  | .queued, .quiesced => some .quiesced
  | .claims, .loading => some .notLoaded
  | .claims, _ => none
  | .load, .loading => none
  | .load, .quiesced => none
  | .load, _ => some .notQuiesced
  | .readout, _ => none
  | .tableEdit, .loading => some .notLoaded
  | .tableEdit, .quiesced => none
  | .tableEdit, _ => some .notQuiesced
  | .mapOrFence, .loading => some .notLoaded
  | .mapOrFence, _ => none
  | .control, .loading => some .notLoaded
  | .control, _ => none

/-- Load and read-out orders, which pass checks 4 and 5 in LOADING (R29). -/
def OrderCode.freeInLoading (c : OrderCode) : Bool := c.cls == .load || c.cls == .readout

/-- State-changing service orders: all but the read-outs without the clear option (section 2.4). -/
def stateChanging (c : OrderCode) (f : OrderFrame) : Bool :=
  match c.cls with
  | .load | .tableEdit | .mapOrFence | .control => true
  | .readout => c == .readHistory && f.flags.getLsbD 1
  | _ => false

/-- The logical start of a queued order (R28). -/
def orderRangeStart (c : OrderCode) (f : OrderFrame) : Addr :=
  if c = .reassign then { orderStart f with sector := 0 } else orderStart f

/-- The sectors of a queued order's range (R28). -/
def orderRangeCount (c : OrderCode) (f : OrderFrame) : Nat := if c = .reassign then 32 else f.count.toNat

/-- The order needs access to write (R61 a). -/
def OrderCode.writes : OrderCode → Bool
  | .write | .update | .reassign => true
  | _ => false

/-- Check 1 (R29, R176). -/
def State.check1 (s : State) (l : Link) (c : OrderCode) (f : OrderFrame) : Option Refused :=
  (formFault c f (s.link l).chain).map (fun x => (.format, x.bytes))

/-- Check 2: the tag (R32). -/
def State.check2 (s : State) (l : Link) (f : OrderFrame) : Option Refused :=
  match s.owner l with
  | some h => if s.tagInUse h f.tag then some (.tagInUse, [0, 0, 0, 0]) else none
  | none => none

/-- Check 3: the mode (R30). -/
def State.check3 (s : State) (c : OrderCode) : Option Refused :=
  (modeRefusal c.cls s.mode).map (fun x => (x, oneByte s.mode.code))

/-- Check 4: the link is assigned. -/
def State.check4 (s : State) (l : Link) (c : OrderCode) : Option Refused :=
  if (s.owner l).isNone && !(c.freeInLoading && s.mode == .loading) then
    some (.unassignedLink, oneByte (Link.code l)) else none

/-- Check 5: authority (R46). -/
def State.check5 (s : State) (l : Link) (c : OrderCode) (f : OrderFrame) : Option Refused :=
  if stateChanging c f && !(c.freeInLoading && s.mode == .loading) && s.owner l != s.authorityHost then
    some (.authority, oneByte ((s.authorityHost.map HostNo.code).getD 255)) else none

/-- Check 6: the drive (R4). -/
def State.check6 (s : State) (c : OrderCode) (f : OrderFrame) : Option Refused :=
  let dr := s.drive (orderDrive f)
  let fails : Bool := match c with
    | .read | .write | .verify | .update | .reassign | .claim | .claimWithNotice => !dr.usable
    | .driveOffline | .driveOnline => dr.state == .absent
    | _ => false
  if fails then some (.noDrive, oneByte dr.state.condition.code) else none

/-- Check 7: the address (R2, R28). -/
def State.check7 (s : State) (c : OrderCode) (f : OrderFrame) : Option Refused :=
  (addressFault (s.drive (orderDrive f)).type (orderRangeStart c f) (orderRangeCount c f)).map
    (fun a => (.address, addrDetail a))

/-- Check 8: the claim (R55). -/
def State.check8 (s : State) (l : Link) (f : OrderFrame) : Option Refused :=
  match (s.drive (orderDrive f)).claim.holder with
  | some g => if s.owner l = some g then none else some (.claimed, oneByte (HostNo.code g))
  | none => none

/-- Check 9: the fence (R61). -/
def State.check9 (s : State) (l : Link) (c : OrderCode) (f : OrderFrame) : Option Refused :=
  match s.owner l with
  | some h =>
    (fenceFault ((s.fences.get h).get (orderDrive f)) c.writes (orderRangeStart c f) (orderRangeCount c f)).map
      (fun t => (.fence, trackDetail t))
  | none => none

/-- Check 10: room in the drive queue. -/
def State.check10 (s : State) (f : OrderFrame) : Option Refused :=
  if Config.queueLimit ≤ (s.drive (orderDrive f)).queue.length then some (.queueFull, [0, 0, 0, 0]) else none

/-- Check 11: room in the report queue (R153). -/
def State.check11 (s : State) (l : Link) : Option Refused :=
  match s.owner l with
  | some h => match s.host h with
    | some x =>
      if Config.completionLimit ≤ x.reserved + x.completions ∨ Config.reportLimit ≤ x.occupied then
        some (.reportFull, [BitVec.ofNat 8 x.reserved, BitVec.ofNat 8 x.queue.length, 0, 0]) else none
    | none => none
  | none => none

/-- The checks of R29, in order: the first that fails refuses. Checks 7 to 11 apply to queued orders. -/
def State.acceptance (s : State) (l : Link) (c : OrderCode) (f : OrderFrame) : Option Refused :=
  let all := [s.check1 l c f, s.check2 l f, s.check3 c, s.check4 l c, s.check5 l c f, s.check6 c f]
  let queued := [s.check7 c f, s.check8 l f, s.check9 l c f, s.check10 f, s.check11 l]
  (if c.queued then all ++ queued else all).findSome? id

/-! ### The course of an ORDER -/

/-- A refused order: a queued one discards the open chain of its link (R31, R34 a), and the ANSWER is offered. -/
def State.refuseOrder (s : State) (l : Link) (c : OrderCode) (f : OrderFrame) (x : Refused) : State :=
  let s := if c.queued then s.discardChain l else s
  (s.openOrder l f.tag false).refuse l f.tag x.1 x.2

/-- An ORDER taken on a link: lost on a DOWN link (log entry 13), LINK-BUSY on a BUSY one (R24), and on an IDLE one the
acceptance sequence, then the order's own course `carryOut` in its exchange (R25, R29, R31). A queued order refused in DRAINING
that discards the last chain empties the last queue, and the drain test makes the mode QUIESCED in the same step (R34, R162),
although R160 has the mode change on no order refused by acceptance: the model's choice (log entry 11). -/
def State.takeOrder (s : State) (l : Link) (c : OrderCode) (f : OrderFrame) (carryOut : State → State) : State :=
  if !(s.link l).up then s
  else if (s.link l).exchange.isSome then s.updLink l (LinkPort.answerBusy s.stallLimit f.tag)
  else match s.acceptance l c f with
    | some x => (s.refuseOrder l c f x).settle
    | none => (carryOut (s.openOrder l f.tag (!c.queued))).settle

/-- The order of an immediate image order awaits its DATA frames: wait d) runs (R25 d, R36 d). -/
def State.awaitImage (s : State) (l : Link) (order : ImageOrder) (n : Nat) : State :=
  s.updLink l (fun p =>
    match p.exchange with
    | some (.order x) =>
      LinkPort.startWait s.stallLimit .image { p with exchange := some (.order { x with stage := .awaitImage order n [] }) }
    | _ => p)

/-- The kind-specific fields of a queued order as its request (R31 b). -/
def requestOf (k : ReqKind) (c : OrderCode) (f : OrderFrame) (issuer : Issuer) : Request :=
  { id := 0, issuer := some issuer, kind := k, start := orderRangeStart c f, count := orderRangeCount c f,
    offset := f.offset.toNat, length := f.length.toNat }

/-- An accepted queued order without a chain enters its queue QUEUED: a selection event (R31 b, R33). -/
def State.placeAlone (s : State) (d : DriveNo) (r : Request) : State := (s.append d r).selectionEvent d

/-- An accepted queued order joins the chain of its link as the next member, opening it when none is open; without the
indicator it closes the chain and member 1 becomes QUEUED (R33). -/
def State.placeInChain (s : State) (l : Link) (d : DriveNo) (more : Bool) (r : Request) : State :=
  match (s.link l).chain with
  | none =>
    let id := s.nextChain
    let s := { s with nextChain := id + 1 }.append d { r with state := .bound, chain := some ⟨id, 1⟩ }
    s.updLink l (fun p => { p with chain := some ⟨id, d, 1⟩ })
  | some c =>
    let pos := c.members + 1
    let s := s.append d { r with state := .bound, chain := some ⟨c.id, pos⟩ }
    if more then s.updLink l (fun p => { p with chain := some { c with members := pos } })
    else
      let s := s.updLink l (fun p => { p with chain := none })
      match (s.drive d).member? c.id 1 with
      | some m => (s.updRequest d m.id (fun m => { m with state := .queued })).selectionEvent d
      | none => s

/-- An accepted queued order: reservation, request, ANSWER ACCEPTED (R31 b, R153). -/
def State.placeQueued (s : State) (l : Link) (k : ReqKind) (form : Form) (c : OrderCode) (f : OrderFrame) : State :=
  let d := orderDrive f
  match s.owner l with
  | none => s
  | some h =>
    let r := { requestOf k c f ⟨f.tag, h, l⟩ with form := form }
    let s := s.updHost h (fun x => { x with reserved := x.reserved + 1 })
    let s := if continues f || (s.link l).chain.isSome then s.placeInChain l d (continues f) r else s.placeAlone d r
    s.offer l [.answer { tag := f.tag, result := .accepted }]

end Sys2Proof.Machine
end

