-- ==== Sys2Proof/Machine/Claims.lean ====
section
/-! DEFINITION. Claims (R50 to R59): the claim orders, BREAK CLAIM, the handing on of a claim, the orphan timer; and READ
CHECK RECORD (R150). -/
namespace Sys2Proof.Machine

/-- Change the claim state of a drive. -/
def State.updClaim (s : State) (d : DriveNo) (f : Claim → Claim) : State :=
  s.updDrive d (fun dr => { dr with claim := f dr.claim })

/-- The orphan timer at the limit in force; a limit of 0 starts none (R56). -/
def State.orphanStart (s : State) : Option Nat :=
  if s.settings.orphanLimit = 0 then none else some (s.settings.orphanLimit * 1000)

/-- The claim state after a handing on, less its timer (R54 steps 1 to 3). -/
def Claim.pass (c : Claim) : Claim :=
  match c.waiting with
  | [] => Claim.clear
  | g :: rest => ⟨some g, rest, none⟩

/-- A claim is handed on (R54): with cause ORPHAN or BREAK the previous holder is told first, then the new one; a new
holder that is cut off has its timer started. -/
def State.handOn (s : State) (d : DriveNo) (cause : ClaimCause) : State :=
  let old := (s.drive d).claim.holder
  let s := s.updClaim d Claim.pass
  let new := (s.drive d).claim.holder
  let s := match cause, old with
    | .orphan, some p => s.tell p (.claimDropped d new cause)
    | .break, some p => s.tell p (.claimDropped d new cause)
    | _, _ => s
  match new, old with
  | some g, some p =>
    let s := s.tell g (.claimGranted d p cause)
    if s.reachable g then s else s.updClaim d (fun c => { c with orphan := s.orphanStart })
  | _, _ => s

/-- Orphan timers of a host that has become cut off start on every drive it holds (R45, R56 a). -/
def State.startOrphans (s : State) (h : HostNo) : State :=
  { s with drives := s.drives.map (fun dr =>
      if dr.claim.holder = some h then { dr with claim := { dr.claim with orphan := s.orphanStart } } else dr) }

/-- A host that has become reachable: its orphan timers stop, and each drive where its requests wait has a selection
event (R45, R56, R68). -/
def State.hostReturns (s : State) (h : HostNo) : State :=
  { s with drives := s.drives.map (fun dr =>
      { dr with
        claim := if dr.claim.holder = some h then { dr.claim with orphan := none } else dr.claim
        selEvent := dr.selEvent || dr.queue.any (fun r => r.state == .queued && r.host == some h) }) }

/-- Reachability of a host is recomputed after a change (R45): `before` is what it was. -/
def State.reachabilityChanged (s : State) (h : HostNo) (before : Bool) : State :=
  match before, s.reachable h with
  | true, false => s.startOrphans h
  | false, true => s.hostReturns h
  | _, _ => s

/-- Bytes 10 and 11 of a claim order's answer: the holder and the place on the waiting list (section 11.1). -/
def claimImage (holder : Option HostNo) (place : Option Nat) : List Byte := o8 (holder.map HostNo.code) ++ o8 place

/-- The place of a host on a waiting list, from 1. -/
def placeOf (h : HostNo) (waiting : List HostNo) : Nat := waiting.findIdx (fun x => x == h) + 1

/-- A claim order of the host that owns the link, when it has one: outside LOADING check 4 has seen to it. -/
def State.byOwner (s : State) (l : Link) (act : HostNo → State) : State :=
  match s.owner l with
  | some h => act h
  | none => s

/-- h becomes holder of a free drive, leaving the waiting list first (R51 a). -/
def Claim.take (h : HostNo) (c : Claim) : Claim := { c with holder := some h, waiting := c.waiting.filter (fun x => x != h) }

/-- CLAIM carried out (R51). -/
def State.claimBy (s : State) (l : Link) (f : OrderFrame) (h : HostNo) : State :=
  let d := orderDrive f
  match (s.drive d).claim.holder with
  | none => (s.updClaim d (Claim.take h)).complete l f.tag (claimImage (some h) none)
  | some g =>
    if g = h then s.complete l f.tag (claimImage (some h) none)
    else s.refuse l f.tag .claimed (oneByte (HostNo.code g))

/-- The ANSWER CLAIMED-WAITING (R52). -/
def State.answerWaiting (s : State) (l : Link) (tag : Byte) (g : HostNo) (place : Nat) : State :=
  s.offer l [.answer { tag := tag, result := .claimedWaiting, image := claimImage (some g) (some place) }]

/-- CLAIM WITH NOTICE carried out (R52). -/
def State.claimWithNoticeBy (s : State) (l : Link) (f : OrderFrame) (h : HostNo) : State :=
  let d := orderDrive f
  let c := (s.drive d).claim
  match c.holder with
  | none => s.claimBy l f h
  | some g =>
    if g = h then s.claimBy l f h
    else if h ∈ c.waiting then s.answerWaiting l f.tag g (placeOf h c.waiting)
    else if c.waiting.length < Config.waitingLimit then
      ((s.updClaim d (fun c => { c with waiting := c.waiting ++ [h] })).tell g (.releaseRequested d h)).answerWaiting l
        f.tag g (c.waiting.length + 1)
    else s.refuse l f.tag .claimed (oneByte (HostNo.code g))

/-- YIELD carried out (R53); the answer's holder is the holder after it (log entry 9). -/
def State.yieldBy (s : State) (l : Link) (f : OrderFrame) (h : HostNo) : State :=
  let d := orderDrive f
  let c := (s.drive d).claim
  if c.holder = some h then
    let s := s.handOn d .yield
    s.complete l f.tag (claimImage (s.drive d).claim.holder none)
  else if h ∈ c.waiting then
    (s.updClaim d (fun c => { c with waiting := c.waiting.filter (fun x => x != h) })).complete l f.tag
      (claimImage c.holder none)
  else s.refuse l f.tag .notHeld

/-- BREAK CLAIM carried out (R58). -/
def State.breakBy (s : State) (l : Link) (f : OrderFrame) : State :=
  let d := orderDrive f
  match (s.drive d).claim.holder with
  | none => s.refuse l f.tag .notHeld
  | some _ =>
    let s := s.handOn d .break
    s.complete l f.tag (claimImage (s.drive d).claim.holder none)

/-- READ CHECK RECORD carried out: the record is answered, then pending and the overwrite count are cleared (R150). -/
def State.readCheck (s : State) (l : Link) (f : OrderFrame) (h : HostNo) : State :=
  match s.host h with
  | some x =>
    (s.updHost h (fun x => { x with check := { x.check with pending := false, overwrites := 0 } })).complete l f.tag
      x.check.bytes
  | none => s

/-- CLAIM (R51). -/
def execClaim (l : Link) (f : OrderFrame) (s : State) : Host.Outcome State Fault Refusal :=
  .next (s.takeOrder l .claim f (fun s => s.byOwner l (fun h => s.claimBy l f h)))

/-- CLAIM WITH NOTICE (R52). -/
def execClaimWithNotice (l : Link) (f : OrderFrame) (s : State) : Host.Outcome State Fault Refusal :=
  .next (s.takeOrder l .claimWithNotice f (fun s => s.byOwner l (fun h => s.claimWithNoticeBy l f h)))

/-- YIELD (R53). -/
def execYield (l : Link) (f : OrderFrame) (s : State) : Host.Outcome State Fault Refusal :=
  .next (s.takeOrder l .yield f (fun s => s.byOwner l (fun h => s.yieldBy l f h)))

/-- READ CHECK RECORD (R150). -/
def execReadCheckRecord (l : Link) (f : OrderFrame) (s : State) : Host.Outcome State Fault Refusal :=
  .next (s.takeOrder l .readCheckRecord f (fun s => s.byOwner l (fun h => s.readCheck l f h)))

/-- BREAK CLAIM (R58). -/
def execBreakClaim (l : Link) (f : OrderFrame) (s : State) : Host.Outcome State Fault Refusal :=
  .next (s.takeOrder l .breakClaim f (fun s => s.breakBy l f))

/-- ORPHAN_TIMEOUT: the orphan timer of a drive, if it runs, expires (R57). -/
def execOrphanTimeout (d : DriveNo) (s : State) : Host.Outcome State Fault Refusal :=
  .next (if (s.drive d).claim.orphan.isSome then (s.handOn d .orphan).settle else s)

end Sys2Proof.Machine
end

