-- ==== Sys2Proof/Machine/Tables.lean ====
section
/-! DEFINITION. The load bundle (R164 to R168), the read-out orders (R171, R151), the edits of host table, fences,
profiles and settings (R48, R49, R63, R169, R170), and the DATA frames of a table image (R25 d, R176, R177). -/
namespace Sys2Proof.Machine

/-- Reasons of EDIT-INVALID and LOAD-INVALID, in the order of section 11.1. -/
inductive InvalidReason where
  | noHost | authorityCount | profileMissing | emptyGroup | linkOwned | profileOrder | extentOrder | extentRange
  | primaryRange | entryExists | alternateShared | poolMismatch | copyingEntry | voidFull | notFree | noEntry | noRecord
  | unknownType | notPresent
  deriving DecidableEq, Repr

/-- The number of a reason, 1 to 19. -/
def InvalidReason.code : InvalidReason → Nat
  | .noHost => 1 | .authorityCount => 2 | .profileMissing => 3 | .emptyGroup => 4 | .linkOwned => 5 | .profileOrder => 6
  | .extentOrder => 7 | .extentRange => 8 | .primaryRange => 9 | .entryExists => 10 | .alternateShared => 11
  | .poolMismatch => 12 | .copyingEntry => 13 | .voidFull => 14 | .notFree => 15 | .noEntry => 16 | .noRecord => 17
  | .unknownType => 18 | .notPresent => 19

/-- The ANSWER EDIT-INVALID with its reason. -/
def State.refuseEdit (s : State) (l : Link) (tag : Byte) (r : InvalidReason) : State :=
  s.refuse l tag .editInvalid (oneByte r.code)

/-- The first condition of a list that fails gives its reason. -/
def firstReason (xs : List (Bool × InvalidReason)) : Option InvalidReason := (xs.find? (fun x => x.1)).map (·.2)

/-! ### Staging -/

/-- The order acts on the staging area this link owns; NO-LOAD when it is closed, LOAD-BUSY when another link owns it
(R165, R166, R168). The detail of this LOAD-BUSY is the owner's letter, as R164 c) has it for BEGIN LOAD: the model's choice
(log entry 9). -/
def State.withStaging (s : State) (l : Link) (tag : Byte) (act : Staging → State) : State :=
  match s.staging with
  | none => s.refuse l tag .noLoad
  | some g => if g.owner = l then act g else s.refuse l tag .loadBusy (oneByte (Link.code g.owner))

/-- Stage a segment: an image replaces that of its key, which keeps its index; a new key takes the next (R164, R165). -/
def Staging.stage (g : Staging) (key : SegKey) (image : SegImage) : Staging × Nat :=
  match g.segments.find? (fun x => x.key == key) with
  | some x =>
    ({ g with segments := g.segments.map (fun y => if y.key = key then { y with image := image } else y) }, x.index)
  | none =>
    let i := g.segments.length + 1
    ({ g with segments := g.segments ++ [⟨key, i, image⟩] }, i)

/-- BEGIN LOAD carried out (R164). -/
def State.beginLoad (s : State) (l : Link) (tag : Byte) : State :=
  match s.staging with
  | some g =>
    if g.owner = l then { s with staging := some ⟨l, []⟩ }.complete l tag
    else s.refuse l tag .loadBusy (oneByte (Link.code g.owner))
  | none => { s with staging := some ⟨l, []⟩ }.complete l tag

/-- LOAD SEGMENT carried out when its image has been taken (R165). -/
def State.loadSegment (s : State) (l : Link) (tag : Byte) (key : SegKey) (image : SegImage) : State :=
  s.withStaging l tag (fun g =>
    let (g, i) := g.stage key image
    { s with staging := some g }.complete l tag (b8 i))

/-! ### Validation (R166) -/

/-- The staged HOST entry of a host number. -/
def Staging.host? (g : Staging) (h : HostNo) : Option HostEntry :=
  g.segments.findSome? (fun x => match x.key, x.image with | .host k, .host e => if k = h then some e else none | _, _ => none)

/-- The staged profile of a type. -/
def Staging.profile? (g : Staging) (t : DriveType) : Option Profile :=
  g.segments.findSome? (fun x => match x.key, x.image with | .profile k, .profile p => if k = t then some p else none | _, _ => none)

/-- The staged map of a position. -/
def Staging.map? (g : Staging) (d : DriveNo) : Option SpareMap :=
  g.segments.findSome? (fun x => match x.key, x.image with | .map k, .map m => if k = d then some m else none | _, _ => none)

/-- The staged settings. -/
def Staging.settings? (g : Staging) : Option Settings :=
  g.segments.findSome? (fun x => match x.image with | .settings y => some y | _ => none)

/-- The staged fence of a host and position; no extents without a segment (R44). -/
def Staging.fence (g : Staging) (h : HostNo) (d : DriveNo) : List Extent :=
  (g.segments.findSome? (fun x => match x.key, x.image with
    | .fence k j, .fence xs => if k = h ∧ j = d then some xs else none
    | _, _ => none)).getD []

/-- The last cylinder an extent or a primary may name: the declared type's data area, 639 for an unbound map (R63, R118,
R166). -/
def SpareMap.lastCylinder (m : SpareMap) : Nat :=
  match m.bound with
  | some (_, t) => t.firstAlternate - 1
  | none => 639

/-- The conditions on the extents of a fence (R63, R166). -/
def extentConditions (last : Nat) (xs : List Extent) : List (Bool × InvalidReason) :=
  [(xs.any (fun x => decide (x.high < x.low)), .extentOrder), (xs.any (fun x => decide (last < x.high)), .extentRange)]

/-- The alternates an entry names. -/
def Entry.names (e : Entry) : List Nat := e.alt :: e.retained

/-- Whether a list repeats a member. -/
def repeats {α : Type} [BEq α] : List α → Bool
  | [] => false
  | x :: xs => xs.contains x || repeats xs

/-- The conditions of a staged map (R166). -/
def mapConditions (m : SpareMap) : List (Bool × InvalidReason) :=
  let named := (m.entries.map Entry.names).flatten
  [(m.entries.any (fun e => decide (m.lastCylinder < e.primary.cyl)), .primaryRange),
   (repeats (m.entries.map (fun e => e.primary.number)), .entryExists),
   (repeats named, .alternateShared),
   ((List.range 96).any (fun a => (m.altState a == .assigned) != named.contains a), .poolMismatch),
   (m.entries.any (fun e => match e.state with | .copying _ => true | _ => false), .copyingEntry),
   (m.entries.any (fun e => match e.state with | .void v => v == SectorSet.all | _ => false), .voidFull)]

/-- The conditions of a staged segment (R166). -/
def Staging.segmentConditions (g : Staging) (x : Segment) : List (Bool × InvalidReason) :=
  match x.key, x.image with
  | .host _, .host e =>
    let lower := g.segments.filterMap (fun y => match y.image with
      | .host e' => if y.index < x.index then some e'.links else none
      | _ => none)
    [(e.links == 0, .emptyGroup), (lower.any (fun ls => (ls &&& e.links) != 0), .linkOwned)]
  | .profile t, .profile p => [(!p.ordered t, .profileOrder)]
  | .fence h d, .fence xs =>
    ((g.host? h).isNone, .noHost) :: extentConditions (match g.map? d with | some m => m.lastCylinder | none => 639) xs
  | .map _, .map m => mapConditions m
  | _, _ => []

/-- Validation of the staged set: the first fault, with its segment index (R166). -/
def Staging.invalid (g : Staging) : Option (InvalidReason × Nat) :=
  let entries := HostNo.all.filterMap g.host?
  let whole := firstReason
    [(entries.isEmpty, .noHost), ((entries.filter (·.authority)).length != 1, .authorityCount),
     ((g.profile? .d40).isNone || (g.profile? .d80).isNone, .profileMissing)]
  match whole with
  | some r => some (r, 0)
  | none => g.segments.findSome? (fun x => (firstReason (g.segmentConditions x)).map (fun r => (r, x.index)))

/-! ### Installation (R167) -/

/-- Every tag of an immediate order leaves use (R42 e). -/
def LinkPort.releaseTag (p : LinkPort) : LinkPort :=
  match p.exchange with
  | some (.order x) => { p with exchange := some (.order { x with holdsTag := false }) }
  | _ => p

/-- Report exchanges in progress end; their frames go with the queues (R27, R159 step 1). -/
def State.endReports (s : State) : State :=
  Link.all.foldl (fun s l => match (s.link l).exchange with | some (.report _) => s.endExchange l | _ => s) s

/-- One value for each host number. -/
def PerHost.ofFn {α : Type} (f : HostNo → α) : PerHost α := ⟨f .h1, f .h2, f .h3, f .h4⟩

/-- One value for each drive position. -/
def PerDrive.ofFn {α : Type} (f : DriveNo → α) : PerDrive α :=
  ⟨f .d0, f .d1, f .d2, f .d3, f .d4, f .d5, f .d6, f .d7⟩

/-- A position at installation: map, claim, deferred list, patrol and scheduling state (R67, R167 steps 1, 3, 4, 5). A
drive that is due stays due until a PATROL is placed for it (R144), and the mode's becoming ONLINE prompts the check (R145;
log entry 19). -/
def Drive.installed (m : SpareMap) (t : PatrolTimer) (dr : Drive) : Drive :=
  { dr with
    map := m, claim := Claim.clear, deferred := [], cursor := ⟨0, 0⟩, patrolTimer := t, patrolEvent := true,
    lastHost := none, runLength := 0, successor := none, armTarget := none }

/-- The tables of the bundle replace the loadable state (R167 steps 1 to 5). -/
def State.installTables (s : State) (g : Staging) : State :=
  let st := g.settings?.getD Settings.default
  { s with
    hosts := PerHost.ofFn (fun h => (g.host? h).map HostState.fresh)
    fences := PerHost.ofFn (fun h => PerDrive.ofFn (fun d => g.fence h d))
    profile40 := g.profile? .d40
    profile80 := g.profile? .d80
    settings := st
    settingsLoaded := g.settings?.isSome
    drives := PerDrive.ofFn (fun d => (s.drive d).installed ((g.map? d).getD SpareMap.empty) st.patrolStart)
    links := s.links.map LinkPort.releaseTag
    history := []
    overflow := 0
    staging := none }

/-- The binding check of a position at installation (R7, R8, R167 step 6). -/
def State.bindInstalled (s : State) (d : DriveNo) : State :=
  let dr := s.drive d
  match dr.cap.bind (fun c => (typeOfCode c.code).map (fun t => (c.serial, t))) with
  | none => s
  | some (n, t) =>
    let (m, fails) := bindingCheck dr.map n t
    let old := dr.state.condition
    if dr.state = .ready ∨ dr.state = .moving ∨ dr.state = .recalibrating then
      (s.updDrive d (fun dr => match fails with
        | none => { dr with map := m }
        | some r => (dr.send .stop).toIncompatible r)).noticeCondition d old
    else if dr.state = .incompatible then
      (s.updDrive d (fun dr => match fails with
        | none => { dr with map := m }.recalibrate
        | some r => { dr with reason := some r })).noticeCondition d old
    else s

/-- A notice to every host of the table (R159 step 3). -/
def State.tellAll (s : State) (rec : Record) : State := HostNo.all.foldl (fun s h => s.tell h rec) s

/-- Installation of a validated bundle (R167). The positions are bound, and their DRIVE-STATE notices raised, in ascending
drive number, an order that step 6 leaves open (log entry 12). -/
def State.install (s : State) (g : Staging) : State :=
  let s := (s.endReports.installTables g).tellAll (.stringReset .load)
  { DriveNo.all.foldl State.bindInstalled s with mode := .online }

/-- END LOAD carried out (R166, R167). -/
def State.endLoad (s : State) (l : Link) (tag : Byte) : State :=
  s.withStaging l tag (fun g =>
    match g.invalid with
    | some (r, i) =>
      { s with staging := none }.refuse l tag .loadInvalid [BitVec.ofNat 8 r.code, BitVec.ofNat 8 i, 0, 0]
    | none => (s.install g).complete l tag)

/-! ### Edits of the host table -/

/-- The conditions of EDIT HOST SET (R48), tested in the order of its table, which R48 does not state (log entry 9). -/
def State.setConditions (s : State) (h : HostNo) (e : HostEntry) : List (Bool × InvalidReason) :=
  [(HostNo.all.any (fun k => k != h && (match s.host k with | some x => (x.entry.links &&& e.links) != 0 | none => false)),
      .linkOwned),
   (e.links == 0, .emptyGroup),
   (s.authorityHost == some h && !e.authority, .authorityCount)]

/-- EDIT HOST SET takes effect (R48 a, R49). -/
def State.setHost (s : State) (h : HostNo) (e : HostEntry) : State :=
  let before := s.reachable h
  let x := match s.host h with
    | some x => { x with entry := e }
    | none => HostState.fresh e
  let fences := match s.host h with
    | some _ => s.fences
    | none => s.fences.set h (PerDrive.const [])
  let others := if e.authority then s.hosts.map (fun y => y.map (fun y => { y with entry := { y.entry with authority := false } }))
    else s.hosts
  { s with hosts := others.set h (some x), fences := fences }.reachabilityChanged h before

/-- EDIT HOST SET carried out (R48, R49). -/
def State.editHostSet (s : State) (l : Link) (f : OrderFrame) : State :=
  let h := (HostNo.ofNat? (imageByte f 16)).getD .h1
  let e := hostEntryOf (fun i => imageByte f (16 + i))
  match firstReason (s.setConditions h e) with
  | some r => s.refuseEdit l f.tag r
  | none => (s.setHost h e).complete l f.tag

/-- A host leaves every waiting list (R49 e). -/
def State.leaveLists (s : State) (h : HostNo) : State :=
  { s with drives := s.drives.map (fun dr =>
      { dr with claim := { dr.claim with waiting := dr.claim.waiting.filter (fun x => x != h) } }) }

/-- The claims a host holds are handed on with cause REMOVED (R49 e, R54), drive by drive in ascending number, which no
rule states (log entry 12). -/
def State.handOnAll (s : State) (h : HostNo) : State :=
  DriveNo.all.foldl (fun s d => if (s.drive d).claim.holder = some h then s.handOn d .removed else s) s

/-- A removed host's report exchange ends and its tags leave use (R27, R49 e). -/
def State.forgetLinks (s : State) (h : HostNo) : State :=
  Link.all.foldl (fun s l => match (s.link l).exchange with
    | some (.report k) => if k = h then s.endExchange l else s
    | some (.order x) => if x.host = some h then s.updLink l LinkPort.releaseTag else s
    | _ => s) s

/-- EDIT HOST REMOVE takes effect (R49 e). -/
def State.removeHost (s : State) (h : HostNo) : State :=
  let s := ((s.leaveLists h).handOnAll h).forgetLinks h
  { s with hosts := s.hosts.set h none, fences := s.fences.set h (PerDrive.const []) }

/-- EDIT HOST REMOVE carried out (R48, R49). -/
def State.editHostRemove (s : State) (l : Link) (f : OrderFrame) : State :=
  let h := (HostNo.ofNat? (imageByte f 16)).getD .h1
  match firstReason [(s.authorityHost == some h, .authorityCount), ((s.host h).isNone, .notPresent)] with
  | some r => s.refuseEdit l f.tag r
  | none => (s.removeHost h).complete l f.tag

/-- EDIT FENCE carried out (R63); its conditions are tested in the order of R63's table, each over all extents, which R63
does not state (log entry 9). -/
def State.editFence (s : State) (l : Link) (f : OrderFrame) : State :=
  let h := (HostNo.ofNat? (imageByte f 16)).getD .h1
  let d := orderDrive f
  let xs := extentsOf (imageWord f) (imageByte f) 19 (imageByte f 18)
  match firstReason (((s.host h).isNone, .noHost) :: extentConditions (s.drive d).map.lastCylinder xs) with
  | some r => s.refuseEdit l f.tag r
  | none => { s with fences := s.fences.set h ((s.fences.get h).set d xs) }.complete l f.tag

/-- Replace the profile of a type. -/
def State.setProfile (s : State) (t : DriveType) (p : Profile) : State :=
  match t with
  | .d40 => { s with profile40 := some p }
  | .d80 => { s with profile80 := some p }

/-- EDIT PROFILE carried out when its image has been taken (R169). Where the image completes after a RESUME the profile is
replaced while requests wait, which are then scored under both, against R169's last sentence and R67: the model's choice (log
entry 19). -/
def State.editProfile (s : State) (l : Link) (tag : Byte) (t : DriveType) (p : Profile) : State :=
  if p.ordered t then (s.setProfile t p).complete l tag else s.refuseEdit l tag .profileOrder

/-- EDIT SETTINGS carried out when its image has been taken: every patrol timer restarts (R170 c), a drive that is due stays
due, and every drive is checked, since a due one is given a PATROL as soon as its setting is turned on (R144). The model's
choice (log entry 19): that the edit prompts the check, which the list of R145 does not have; and, where the image completes
after a RESUME, that the timer of a drive whose PATROL stands in its queue restarts (R145) and that R170's 'at once' holds for
requests that wait (R67) and for an engine at work (R105), which the edit in QUIESCED is to keep from two values. -/
def State.editSettings (s : State) (l : Link) (tag : Byte) (st : Settings) : State :=
  { s with
    settings := st
    settingsLoaded := true
    drives := s.drives.map (fun dr : Drive => { dr with patrolTimer := st.patrolStart, patrolEvent := true }) }.complete l tag

/-! ### DATA frames of a table image -/

/-- The last DATA frame of an image has been taken: it is examined, and the order carried out (R25 d, R176). -/
def State.imageTaken (s : State) (l : Link) (tag : Byte) (order : ImageOrder) (xs : List Byte) : State :=
  let refuse := fun o => s.refuse l tag .format (FormatDetail.image o).bytes
  match order with
  | .loadSegment key =>
    match segImageOf key xs with
    | (some o, _) => refuse o
    | (none, image) => s.loadSegment l tag key image
  | .editProfile t =>
    match firstFault (profileImageFaults t xs) with
    | some o => refuse o
    | none => s.editProfile l tag t (profileOf xs)
  | .editSettings =>
    match firstFault (settingsImageFaults xs) with
    | some o => refuse o
    | none => s.editSettings l tag (settingsOf xs)

/-- A DATA frame of an order exchange: the next of its image, or discarded (R22 c, R177). Wait d) starts afresh, and bounds a
LINK-BUSY answer offered (R36 g), or ends with the last frame (R36 d). An order refused FORMAT by its image keeps its tag in
use to the end of the exchange, where R176 and R31 may be read otherwise (log entry 15). -/
def State.takeImageData (s : State) (l : Link) (tag : Byte) (index : Nat) (data : List Byte) : State :=
  match (s.link l).exchange with
  | some (.order x) =>
    match x.stage with
    | .awaitImage order n taken =>
      if x.tag = tag ∧ index = taken.length then
        let port := fun st => fun p : LinkPort =>
          { p.stopWait with exchange := some (.order { x with stage := st }) }
        if taken.length + 1 < n then
          s.updLink l (fun p => LinkPort.startWait s.stallLimit .image (port (.awaitImage order n (taken ++ [data])) p))
        else ((s.updLink l (port .answering)).imageTaken l tag order (taken ++ [data]).flatten).settle
      else s
    | .answering => s
  | _ => s

/-- BEGIN LOAD (R164). -/
def execBeginLoad (l : Link) (f : OrderFrame) (s : State) : Host.Outcome State Fault Refusal :=
  .next (s.takeOrder l .beginLoad f (fun s => s.beginLoad l f.tag))

/-- LOAD SEGMENT: its image is awaited (R165). -/
def execLoadSegment (l : Link) (f : OrderFrame) (s : State) : Host.Outcome State Fault Refusal :=
  .next (s.takeOrder l .loadSegment f (fun s =>
    s.awaitImage l (.loadSegment (segKeyOf f)) (OrderCode.loadSegment.imageFrames f.form)))

/-- END LOAD (R166). -/
def execEndLoad (l : Link) (f : OrderFrame) (s : State) : Host.Outcome State Fault Refusal :=
  .next (s.takeOrder l .endLoad f (fun s => s.endLoad l f.tag))

/-- ABANDON LOAD (R168). -/
def execAbandonLoad (l : Link) (f : OrderFrame) (s : State) : Host.Outcome State Fault Refusal :=
  .next (s.takeOrder l .abandonLoad f (fun s =>
    s.withStaging l f.tag (fun _ => { s with staging := none }.complete l f.tag)))

/-- READ MAP (R171). -/
def execReadMap (l : Link) (f : OrderFrame) (s : State) : Host.Outcome State Fault Refusal :=
  .next (s.takeOrder l .readMap f (fun s => s.readOut l f.tag 3 (s.drive (orderDrive f)).map.bytes))

/-- READ SNAPSHOT (R171). -/
def execReadSnapshot (l : Link) (f : OrderFrame) (s : State) : Host.Outcome State Fault Refusal :=
  .next (s.takeOrder l .readSnapshot f (fun s => s.readOut l f.tag 7 s.snapshotImage))

/-- READ HISTORY without the clear option (R171). -/
def execReadHistory (l : Link) (f : OrderFrame) (s : State) : Host.Outcome State Fault Refusal :=
  .next (s.takeOrder l .readHistory f (fun s => s.readOut l f.tag 4 s.historyImage))

/-- The history is emptied, its overflow count 0, the deferred lists empty (R137, R151). -/
def State.clearHistory (s : State) : State :=
  { s with history := [], overflow := 0, drives := s.drives.map (fun dr => { dr with deferred := [] }) }

/-- READ HISTORY with the clear option: captured, then cleared (R151). -/
def execReadHistoryClear (l : Link) (f : OrderFrame) (s : State) : Host.Outcome State Fault Refusal :=
  .next (s.takeOrder l .readHistory f (fun s => s.clearHistory.readOut l f.tag 4 s.historyImage))

/-- READ SETTINGS (R171). -/
def execReadSettings (l : Link) (f : OrderFrame) (s : State) : Host.Outcome State Fault Refusal :=
  .next (s.takeOrder l .readSettings f (fun s => s.readOut l f.tag 1 s.settingsData))

/-- EDIT HOST SET (R48 a). -/
def execEditHostSet (l : Link) (f : OrderFrame) (s : State) : Host.Outcome State Fault Refusal :=
  .next (s.takeOrder l .editHost f (fun s => s.editHostSet l f))

/-- EDIT HOST REMOVE (R48 b). -/
def execEditHostRemove (l : Link) (f : OrderFrame) (s : State) : Host.Outcome State Fault Refusal :=
  .next (s.takeOrder l .editHost f (fun s => s.editHostRemove l f))

/-- EDIT FENCE (R63). -/
def execEditFence (l : Link) (f : OrderFrame) (s : State) : Host.Outcome State Fault Refusal :=
  .next (s.takeOrder l .editFence f (fun s => s.editFence l f))

/-- EDIT PROFILE: its image is awaited (R169). -/
def execEditProfile (l : Link) (f : OrderFrame) (s : State) : Host.Outcome State Fault Refusal :=
  .next (s.takeOrder l .editProfile f (fun s =>
    s.awaitImage l (.editProfile (if f.form = 1 then .d40 else .d80)) (OrderCode.editProfile.imageFrames f.form)))

/-- EDIT SETTINGS: its image is awaited (R170). -/
def execEditSettings (l : Link) (f : OrderFrame) (s : State) : Host.Outcome State Fault Refusal :=
  .next (s.takeOrder l .editSettings f (fun s =>
    s.awaitImage l .editSettings (OrderCode.editSettings.imageFrames f.form)))

/-- IMAGE_DATA_TAKEN: a DATA frame of a table image (R25 d, R177). -/
def execImageDataTaken (l : Link) (tag : Byte) (index : BitVec 16) (data : List Byte) (s : State) :
    Host.Outcome State Fault Refusal :=
  .next (s.takeImageData l tag index.toNat data)

end Sys2Proof.Machine
end

