-- ==== Sys2Proof/Machine/Control.lean ====
section
/-! DEFINITION. The control orders but BREAK CLAIM: QUIESCE (R161), RESUME (R163), STRING RESET (R172), DRIVE OFFLINE
(R18) and DRIVE ONLINE (R19). -/
namespace Sys2Proof.Machine

/-- The AUTO-REASSIGNs a QUIESCE takes out of a queue: QUEUED or HELD, their copy not begun (R161 a). -/
def State.notBegun (s : State) (r : Request) : Bool :=
  r.kind == .autoReassign && (r.state == .queued || r.state == .held) && (s.ownCopy r.id).isNone

/-- They go to the head of the deferred list in the order of the queue (R161 a). Where a history cleared in between has let
one track be asked for twice, both stand on the list, although R142 has a track there at most once (log entry 21). -/
def State.putOff (s : State) (d : DriveNo) : State :=
  s.updDrive d (fun dr => { dr with
    queue := dr.queue.filter (fun r => !s.notBegun r)
    deferred := (dr.queue.filter s.notBegun).map (fun r => ⟨r.start.track, r.histKey.getD r.start.track⟩) ++ dr.deferred })

/-- QUIESCE carried out (R161); the drain test follows in `settle`. -/
def State.quiesce (s : State) (l : Link) (tag : Byte) : State :=
  if s.mode = .online then (DriveNo.all.foldl State.putOff { s with mode := .draining }).complete l tag
  else s.complete l tag

/-- Deferred AUTO-REASSIGNs of a drive are placed, oldest first, while the queue has room (R142, R163 b). -/
def State.placeDeferred (s : State) (d : DriveNo) : State :=
  let room := Config.queueLimit - (s.drive d).queue.length
  let xs := (s.drive d).deferred
  (xs.take room).foldl (fun s x => s.placeAuto d x) (s.updDrive d (fun dr => { dr with deferred := xs.drop room }))

/-- RESUME carried out (R163): staging discarded, deferred requests placed, the patrol check prompted on every drive. -/
def State.resume (s : State) (l : Link) (tag : Byte) : State :=
  if s.mode = .draining ∨ s.mode = .quiesced then
    let s := DriveNo.all.foldl State.placeDeferred { s with mode := .online, staging := none }
    { s with drives := s.drives.map (fun dr : Drive => { dr with patrolEvent := true }) }.complete l tag
  else s.complete l tag

/-! ### STRING RESET -/

/-- A drive at a string reset: every request is gone, claims and deferred list cleared, an ORIENTING drive READY
(R20, R146 e, R172 steps 2, 3, 4, 6). -/
def Drive.stringReset (t : PatrolTimer) (dr : Drive) : Drive :=
  let patrol := dr.queue.any (fun r => r.kind == .patrol)
  let dr := { dr with
    queue := [], lastHost := none, runLength := 0, successor := none, armTarget := none, claim := Claim.clear,
    deferred := [],
    patrolTimer := if patrol then t else dr.patrolTimer
    patrolEvent := dr.patrolEvent || !dr.queue.isEmpty }
  if dr.state = .orienting then dr.enter .ready else dr

/-- A host at a string reset: check record clear, report queue empty, nothing reserved, nothing lost (R147, R159). -/
def HostState.stringReset (x : HostState) : HostState :=
  { x with queue := [], reserved := 0, lost := 0, reportLink := none, check := CheckRecord.clear }

/-- Each engine in use ends its work at its next sector boundary (R20 c, R104). -/
def State.stopEngines (s : State) : State :=
  EngineNo.all.foldl (fun s e => if (s.engine e).isFree then s else s.cutTransfer e .stringReset) s

/-- Some engine is still finishing a sector for a string reset (R162). -/
def State.finishing (s : State) : Bool := EngineNo.all.any (fun e => (s.engine e).ending == some .stringReset)

/-- A copy that no engine is still working on is aborted now (R172 step 2). -/
def State.abortIdleCopy (s : State) : State :=
  match s.copy with
  | some c =>
    if EngineNo.all.any (fun e => match (s.engine e).service with
        | some v => v.request == c.request && (s.engine e).ending == some .stringReset
        | none => false) then s
    else
      let (s, void) := s.abortCopy c
      s.abortNotice c.drive void
  | none => s

/-- STRING RESET takes effect (R172). -/
def State.resetString (s : State) : State :=
  let s := s.endReports
  let s := { s with
    staging := none
    links := s.links.map (fun p => LinkPort.releaseTag (LinkPort.dropChain s.stallLimit p))
    drives := s.drives.map (Drive.stringReset s.settings.patrolStart)
    history := s.history.map (fun e : HistEntry => { e with sparePending := false })
    hosts := s.hosts.map (Option.map HostState.stringReset)
    resetting := false }
  let s : State := ((s.tellAll (.stringReset .reset)).stopEngines).abortIdleCopy
  { s with
    resetting := s.finishing
    mode := if s.mode = .draining ∧ s.finishing = false ∧ s.drained = true then .quiesced else s.mode }

/-! ### DRIVE OFFLINE and DRIVE ONLINE -/

/-- DRIVE OFFLINE takes effect on a drive not ABSENT (R18): requests end but for one an engine serves, the drive is
OFFLINE, its engine goes on to the sector boundary. The completions come first, that of an engine which stops at once among
them, then DRIVE-STATE, then VOID-TRACK (R135; log entry 10). -/
def State.takeOffline (s : State) (d : DriveNo) : State :=
  let old := (s.drive d).state.condition
  let (s, void) := s.endWorkOffline d
  let s := s.updDrive d (fun dr =>
    let dr := if dr.state = .moving ∨ dr.state = .recalibrating then dr.send .stop else dr
    { dr.enter .offline with seekTimer := none })
  let (s, void') := match s.engineOn d with
    | some e => s.interruptOffline e
    | none => (s, none)
  (s.noticeCondition d old).abortNotice d (void <|> void')

/-- DRIVE OFFLINE carried out (R18 b, c). -/
def State.driveOffline (s : State) (l : Link) (f : OrderFrame) : State :=
  let d := orderDrive f
  (if (s.drive d).state = .offline then s else s.takeOffline d).complete l f.tag

/-- The admission of a drive in FAULTED or OFFLINE (R19 a to d). A recalibration waits for an engine that is still
finishing a sector. -/
def Drive.bringOnline (faultLine engineBusy : Bool) (dr : Drive) : Drive :=
  if faultLine then dr.toFaulted .faultLine
  else match dr.cap with
    | none => dr.spinUp
    | some c =>
      match typeOfCode c.code with
      | none => dr.toIncompatible .unknownType
      | some t =>
        match bindingCheck dr.map c.serial t with
        | (_, some r) => dr.toIncompatible r
        | (m, none) =>
          let dr := { dr with map := m }
          if engineBusy then { dr.enter .recalibrating with recalDue := true } else dr.recalibrate

/-- DRIVE ONLINE carried out (R19). An OFFLINE drive with its fault line asserted enters FAULTED, which releases an engine
still at work at once and aborts its copy (R86 d, R134 a; log entry 18). Entering any other state ends no request: one that an
engine is still finishing, and an AUTO-REASSIGN placed while it finished, stay in the queue, in INCOMPATIBLE as well, where R8
has none (log entry 23). -/
def State.driveOnline (s : State) (l : Link) (f : OrderFrame) (faultLine : Bool) : State :=
  let d := orderDrive f
  let old := (s.drive d).state
  if old = .faulted ∨ old = .offline then
    let (s, void) := if faultLine = true ∧ old = .offline then s.endWorkNow d .driveFault else (s, none)
    (((s.updDrive d (Drive.bringOnline faultLine (s.engineOn d).isSome)).noticeCondition d old.condition).abortNotice d
      void).complete l f.tag
  else s.complete l f.tag

/-- QUIESCE (R161). -/
def execQuiesce (l : Link) (f : OrderFrame) (s : State) : Host.Outcome State Fault Refusal :=
  .next (s.takeOrder l .quiesce f (fun s => s.quiesce l f.tag))

/-- RESUME (R163). -/
def execResume (l : Link) (f : OrderFrame) (s : State) : Host.Outcome State Fault Refusal :=
  .next (s.takeOrder l .resume f (fun s => s.resume l f.tag))

/-- STRING RESET (R172). -/
def execStringReset (l : Link) (f : OrderFrame) (s : State) : Host.Outcome State Fault Refusal :=
  .next (s.takeOrder l .stringReset f (fun s => s.resetString.complete l f.tag))

/-- DRIVE OFFLINE (R18). -/
def execDriveOffline (l : Link) (f : OrderFrame) (s : State) : Host.Outcome State Fault Refusal :=
  .next (s.takeOrder l .driveOffline f (fun s => s.driveOffline l f))

/-- DRIVE ONLINE (R19). -/
def execDriveOnline (l : Link) (f : OrderFrame) (faultLine : Bool) (s : State) : Host.Outcome State Fault Refusal :=
  .next (s.takeOrder l .driveOnline f (fun s => s.driveOnline l f faultLine))

end Sys2Proof.Machine
end

