-- ==== Sys2Proof/Machine/DataOrders.lean ====
section
/-! DEFINITION. The meanings of the data orders (R28, R31 b, R94 to R97, R123), of an ORDER on a BUSY link (R24), of an
undefined order code (R29, R176) and of a discarded frame (R22, R175). -/
namespace Sys2Proof.Machine

/-- ORDER_ON_BUSY_LINK: answered LINK-BUSY; it never reaches acceptance (R24). -/
def execOrderOnBusyLink (l : Link) (tag : Byte) (s : State) : Host.Outcome State Fault Refusal :=
  .next (if (s.link l).up && (s.link l).exchange.isSome then s.updLink l (LinkPort.answerBusy s.stallLimit tag) else s)

/-- UNKNOWN_ORDER: refused UNKNOWN-ORDER with its code as detail, FORMAT at a wrong length, LINK-BUSY on a BUSY link
(R24, R29, R175, R176). A frame of a wrong length whose code is undefined too is refused FORMAT, by R175; R176 has the code
examined first (log entry 9). An undefined code is no queued order, so an open chain stays open (R34 a). -/
def execUnknownOrder (l : Link) (code : Byte) (f : OrderFrame) (s : State) : Host.Outcome State Fault Refusal :=
  .next (
    if !(s.link l).up then s
    else if (s.link l).exchange.isSome then s.updLink l (LinkPort.answerBusy s.stallLimit f.tag)
    else
      let x : Refused := if f.size = 40 then (.unknownOrder, [code, 0, 0, 0]) else (.format, (FormatDetail.field 0).bytes)
      ((s.openOrder l f.tag false).refuse l f.tag x.1 x.2).settle)

/-- FRAME_DISCARDED: a discarded frame changes nothing and is not answered (R22, R175). -/
def execFrameDiscarded (_l : Link) (_bytes : List Byte) (s : State) : Host.Outcome State Fault Refusal := .next s

/-- READ (R94). -/
def execRead (l : Link) (f : OrderFrame) (s : State) : Host.Outcome State Fault Refusal :=
  .next (s.takeOrder l .read f (fun s => s.placeQueued l .read .new .read f))

/-- WRITE (R96). -/
def execWrite (l : Link) (f : OrderFrame) (s : State) : Host.Outcome State Fault Refusal :=
  .next (s.takeOrder l .write f (fun s => s.placeQueued l .write .new .write f))

/-- VERIFY (R95). -/
def execVerify (l : Link) (f : OrderFrame) (s : State) : Host.Outcome State Fault Refusal :=
  .next (s.takeOrder l .verify f (fun s => s.placeQueued l .verify .new .verify f))

/-- UPDATE (R97). -/
def execUpdate (l : Link) (f : OrderFrame) (s : State) : Host.Outcome State Fault Refusal :=
  .next (s.takeOrder l .update f (fun s => s.placeQueued l .update .new .update f))

/-- REASSIGN with form NEW (R28 c, R123). -/
def execReassignNew (l : Link) (f : OrderFrame) (s : State) : Host.Outcome State Fault Refusal :=
  .next (s.takeOrder l .reassign f (fun s => s.placeQueued l .reassign .new .reassign f))

/-- REASSIGN with form FILL (R28 c, R123). -/
def execReassignFill (l : Link) (f : OrderFrame) (s : State) : Host.Outcome State Fault Refusal :=
  .next (s.takeOrder l .reassign f (fun s => s.placeQueued l .reassign .fill .reassign f))

end Sys2Proof.Machine
end

