-- ==== Sys2Proof/Machine/Drives.lean ====
section
/-! DEFINITION. What drives report on the string bus and what their timers do (01_drives_and_the_string_bus.md, R3 to
R17), and the patrol timer (R144). -/
namespace Sys2Proof.Machine

/-- A change of a drive's state by one of its reports, with its DRIVE-STATE notice (R4). -/
def State.driveMoves (s : State) (d : DriveNo) (f : Drive → Drive) : State :=
  ((s.updDrive d f).noticeCondition d (s.drive d).state.condition).settle

/-- DRIVE_ANSWERS_POLL: an ABSENT position is STARTING and orders SPIN-UP (R5). -/
def execDriveAnswersPoll (d : DriveNo) (s : State) : Host.Outcome State Fault Refusal :=
  .next (if (s.drive d).state = .absent then s.driveMoves d Drive.spinUp else s)

/-- A capability record that arrives in STARTING is stored and decides the next state (R6, R7). -/
def Drive.identify (code : TypeCode) (serial : Fin 1000000) (dr : Drive) : Drive :=
  let dr := { dr with cap := some ⟨code, serial⟩ }
  match typeOfCode code with
  | none => dr.toIncompatible .unknownType
  | some t =>
    match bindingCheck dr.map serial t with
    | (_, some r) => dr.toIncompatible r
    | (m, none) => { dr with map := m }.recalibrate

/-- CAPABILITY (R6): in OFFLINE it replaces the stored record, outside STARTING and OFFLINE it is discarded. -/
def execCapability (d : DriveNo) (code : TypeCode) (serial : Fin 1000000) (s : State) : Host.Outcome State Fault Refusal :=
  .next (match (s.drive d).state with
    | .starting => s.driveMoves d (Drive.identify code serial)
    | .offline => s.updDrive d (fun dr => { dr with cap := some ⟨code, serial⟩ })
    | _ => s)

/-- INDEX: slot 0, and the orientation timer restarts, in the four turning states (R3, R14). The slot is a new arrival
(R78 b); that it is one where the slot was 0 already is the model's choice (log entry 14). -/
def execIndex (d : DriveNo) (s : State) : Host.Outcome State Fault Refusal :=
  .next (if (s.drive d).state.turning then
      s.updDrive d (fun dr => { dr with slot := some 0, orientTimer := some Config.orientTimeout, pointMet := false })
    else s)

/-- SLOT_ADVANCE: a known slot steps by one; the last wraps to 0 (R3; log entry 14). The slot is a new arrival (R78 b). -/
def execSlotAdvance (d : DriveNo) (s : State) : Host.Outcome State Fault Refusal :=
  .next (match (s.drive d).slot with
    | some n => s.updDrive d (fun dr => { dr with slot := some ((n + 1) % 128), pointMet := false })
    | none => s)

/-- The seek has arrived: the recorded target is the current track, and the drive orients for its arm holder or is
READY (R11). -/
def Drive.arrive (dr : Drive) : Drive :=
  let dr := { dr with seekTimer := none, pos := dr.seekTarget, seekTarget := none }
  match dr.holder with
  | some r => (dr.updRequest r.id (fun r => { r with state := .orienting })).enter .orienting
  | none => dr.enter .ready

/-- SEEK_COMPLETE; discarded when no seek is outstanding (R11). -/
def execSeekComplete (d : DriveNo) (s : State) : Host.Outcome State Fault Refusal :=
  .next (if (s.drive d).state = .moving then (s.updDrive d Drive.arrive).settle else s)

/-- The third seek check of a reassignment whose copy has begun: the copy is aborted, the requester ends, HELD requests
return, and the VOID-TRACK notice follows (R134, R135 b). -/
def State.seekCheckCopy (s : State) (d : DriveNo) (r : Request) (c : CopyRecord) : State :=
  let v := s.copyValid c
  let (s, void) := s.abortCopy c
  let s := s.unhold d c.logical
  let s := if r.kind = .reassign then s.endWithChain d r (r.afterCopy d .seekCheck v) else s.leave d r.id
  s.abortNotice d void

/-- The arm holder after a seek check (R12 a to d). -/
def State.seekChecked (s : State) (d : DriveNo) (r : Request) : State :=
  if r.seekChecks + 1 < Config.seekCheckLimit then
    s.updRequest d r.id (fun r => { r with state := .queued, seekChecks := r.seekChecks + 1 })
  else match s.ownCopy r.id with
    | some c => s.seekCheckCopy d r c
    | none =>
      if r.kind = .patrol then s.patrolLeaves d r.id false
      else s.endWithChain d r (r.completion d .seekCheck)

/-- A seek check: RECALIBRATE is ordered, after STOP on a timeout, and the arm holder gives up the arm (R12). -/
def State.seekFails (s : State) (d : DriveNo) (stop : Bool) : State :=
  let holder := (s.drive d).holder
  let s := s.updDrive d (fun dr =>
    { (if stop then dr.send .stop else dr).recalibrate with armTarget := none })
  (match holder with
    | some r => s.seekChecked d r
    | none => s).settle

/-- A recalibration that fails: STOP, FAULTED with cause RECAL-FAILED (R13 b). -/
def State.recalFails (s : State) (d : DriveNo) : State :=
  s.driveDown d .driveFault (fun dr => (dr.send .stop).toFaulted .recalFailed)

/-- A recalibration is outstanding: RECALIBRATING with RECALIBRATE ordered (R13, R19). -/
def Drive.recalibrating (dr : Drive) : Bool := dr.state == .recalibrating && !dr.recalDue

/-- SEEK_CHECK by drive state (R12, R13 b, R15 c, d). -/
def execSeekCheck (d : DriveNo) (s : State) : Host.Outcome State Fault Refusal :=
  .next (match (s.drive d).state with
    | .moving => s.seekFails d false
    | .recalibrating => if (s.drive d).recalibrating then s.recalFails d else s
    | .ready | .orienting | .transferring => s.driveDown d .driveFault (Drive.toFaulted .unsolicitedSeekCheck)
    | _ => s)

/-- SEEK_TIMEOUT: the seek timer of a drive, if it runs, expires (R12, R13 b). -/
def execSeekTimeout (d : DriveNo) (s : State) : Host.Outcome State Fault Refusal :=
  .next (if (s.drive d).seekTimer.isNone then s
    else match (s.drive d).state with
      | .moving => s.seekFails d true
      | .recalibrating => s.recalFails d
      | _ => s)

/-- The recalibration is complete: cylinder 0, head 0, slot unknown, READY (R13 a). -/
def Drive.recalibrated (dr : Drive) : Drive :=
  { ({ dr with seekTimer := none }.enter .ready) with pos := some ⟨0, 0⟩ }

/-- RECAL_COMPLETE; discarded outside RECALIBRATING (R13 a). -/
def execRecalComplete (d : DriveNo) (s : State) : Host.Outcome State Fault Refusal :=
  .next (if (s.drive d).recalibrating then (s.updDrive d Drive.recalibrated).settle else s)

/-- RECAL_FAILED; discarded outside RECALIBRATING (R13 b). -/
def execRecalFailed (d : DriveNo) (s : State) : Host.Outcome State Fault Refusal :=
  .next (if (s.drive d).recalibrating then s.recalFails d else s)

/-- ORIENTATION_TIMEOUT: the orientation timer of a drive, if it runs, expires (R14). -/
def execOrientationTimeout (d : DriveNo) (s : State) : Host.Outcome State Fault Refusal :=
  .next (if (s.drive d).orientTimer.isNone then s
    else s.driveDown d .driveFault (fun dr => (dr.send .stop).toFaulted .orientTimeout))

/-- States in which the fault line is acted on (R15). -/
def DriveState.faults : DriveState → Bool
  | .absent | .offline | .faulted => false
  | _ => true

/-- FAULT (R15). -/
def execFault (d : DriveNo) (s : State) : Host.Outcome State Fault Refusal :=
  .next (if (s.drive d).state.faults then s.driveDown d .driveFault (Drive.toFaulted .faultLine) else s)

/-- The drive is lost: timers stop, the record is cleared (R17). -/
def Drive.lost (dr : Drive) : Drive := { dr.enter .absent with cap := none, seekTimer := none, recalDue := false }

/-- DRIVE_LOST (R17). -/
def execDriveLost (d : DriveNo) (s : State) : Host.Outcome State Fault Refusal :=
  .next (if (s.drive d).state = .absent then s else s.driveDown d .noDrive Drive.lost)

/-- PATROL_TIMER_EXPIRY: the patrol timer of a drive, if it runs, expires; the drive is due (R144, R145). -/
def execPatrolTimerExpiry (d : DriveNo) (s : State) : Host.Outcome State Fault Refusal :=
  .next (match (s.drive d).patrolTimer with
    | .running _ =>
      (s.updDrive d (fun dr => { dr with patrolTimer := .expired, patrolDue := true, patrolEvent := true })).settle
    | _ => s)

end Sys2Proof.Machine
end

