-- ==== Sys2Proof/Machine/Links.lean ====
section
/-! DEFINITION. Power and link events (R173, R39 to R41), the stall timer's expiry (R37), the frames that hosts take
(R22, R25, R27, R158) and the DATA frames of a write (R88, R97). -/
namespace Sys2Proof.Machine

/-- POWER_ON: the state of R173, each link by its signal (R21), each drive that answers the poll in STARTING (R5). The
commands that wait stay. -/
def execPowerOn (signals : PerLink Bool) (answering : PerDrive Bool) (s : State) : Host.Outcome State Fault Refusal :=
  .next { State.reset with
    links := signals.map LinkPort.idle
    drives := answering.map (fun yes => if yes then Drive.initial.spinUp else Drive.initial)
    pending := s.pending }

/-- Reachability of the host that owns a link, recomputed after a link event (R45 a, b). -/
def State.linkChanged (s : State) (owner : Option HostNo) (before : Bool) : State :=
  match owner with
  | some h => s.reachabilityChanged h before
  | none => s

/-- Whether the host that owns a link, if any, is reachable. -/
def State.ownerReachable (s : State) (l : Link) : Bool :=
  match s.owner l with
  | some h => s.reachable h
  | none => false

/-- The signal appears on a DOWN link (R40). -/
def State.linkUp (s : State) (l : Link) : State :=
  ((s.updLink l (fun _ => LinkPort.idle true)).linkChanged (s.owner l) (s.ownerReachable l)).settle

/-- LINK_UP (R21 a, R40). -/
def execLinkUp (l : Link) (s : State) : Host.Outcome State Fault Refusal :=
  .next (if (s.link l).up then s else s.linkUp l)

/-- The host's report exchange is over with its frame kept at the head (R27). -/
def State.dropReport (s : State) (h : HostNo) : State := s.updHost h (fun x => { x with reportLink := none })

/-- The exchange of a link that has gone down ends (R39 b, c, d): its port holds nothing; a transfer ends LINK-LOST at
the sector boundary. -/
def State.lostExchange (s : State) (l : Link) : State :=
  let x := (s.link l).exchange
  let s := s.updLink l (fun _ => LinkPort.idle false)
  match x with
  | some (.transfer e _ _) =>
    (s.updEngine e (fun g => { g with cut := true, service := g.service.map (fun v => { v with link := none }) })).interrupt
      e (.event .linkLost)
  | some (.report h) => s.dropReport h
  | _ => s

/-- The signal is lost (R39). The chain is discarded, with the GAP that a freed slot brings (R156), before the completion of
a transfer that ends at once, an order that R39 leaves open (log entry 12). -/
def State.linkDown (s : State) (l : Link) : State :=
  let s' := ((s.discardChain l).lostExchange l).dropStaging l
  (s'.linkChanged (s.owner l) (s.ownerReachable l)).settle

/-- LINK_DOWN (R21 b, R39). -/
def execLinkDown (l : Link) (s : State) : Host.Outcome State Fault Refusal :=
  .next (if (s.link l).up then s.linkDown l else s)

/-! ### RESET -/

/-- The engine that serves a request. -/
def State.engineOf (s : State) (id : Nat) : Option EngineNo :=
  EngineNo.all.find? (fun e => match (s.engine e).service with | some v => v.request == id | none => false)

/-- A request accepted on the link of a RESET is removed by its state (R41 d, f). -/
def State.resetRequest (s : State) (d : DriveNo) (r : Request) : State :=
  if (s.ownCopy r.id).isSome then s.updRequest d r.id (fun r => { r with marked := true })
  else match r.state with
    | .transferring =>
      let s := s.updRequest d r.id (fun r => { r with marked := true })
      match s.engineOf r.id with
      | some e => s.cutTransfer e (.event .linkReset)
      | none => s
    | .positioning => (s.removeSilently d r).updDrive d (fun dr => { dr with armTarget := none })
    | .orienting => (s.removeSilently d r).updDrive d Drive.freeArm
    | _ => s.removeSilently d r

/-- A request was accepted on a link. -/
def Request.cameOn (l : Link) (r : Request) : Bool := r.issuer.any (fun i => i.link == l)

/-- The requests accepted on a link, drive by drive in queue order (R41 d). -/
def State.resetRequests (s : State) (l : Link) : State :=
  DriveNo.all.foldl (fun s d =>
    ((s.drive d).queue.filter (Request.cameOn l)).foldl (fun s r => s.resetRequest d r) s) s

/-- No wait runs on the link of a RESET and no LINK-BUSY answer is left (log entry 15). -/
def LinkPort.quiet (p : LinkPort) : LinkPort :=
  { p with stall := none, due := none, busyTags := [], offered := if p.busyOffered then none else p.offered }

/-- The exchange of the link of a RESET (R41 b, c, e): a transfer goes on to its sector boundary. -/
def State.resetExchange (s : State) (l : Link) : State :=
  match (s.link l).exchange with
  | some (.transfer e _ _) => s.cutTransfer e (.event .linkReset)
  | some (.report h) => (s.dropReport h).endExchange l
  | some (.order _) => s.endExchange l
  | none => s

/-- A RESET frame clears the link's work (R41). The silent removals, with the GAP that a freed slot brings (R156), come
before the completion of a transfer that ends at once, an order that R41 leaves open (log entry 12). -/
def State.linkReset (s : State) (l : Link) : State :=
  let s := (s.updLink l LinkPort.quiet).discardChain l
  (((s.resetRequests l).resetExchange l).dropStaging l).settle

/-- RESET, in IDLE or BUSY (R22 b, R41). -/
def execReset (l : Link) (s : State) : Host.Outcome State Fault Refusal :=
  .next (if (s.link l).up then s.linkReset l else s)

/-! ### Frames accepted by the host -/

/-- A frame of an order exchange is accepted; with the last the exchange ends (R25, R32 b). -/
def State.orderFrameAccepted (s : State) (l : Link) : State :=
  let s := s.updLink l LinkPort.acceptFrame
  (if (s.link l).toSend.isEmpty then s.endExchange l else s.updLink l (LinkPort.pump s.stallLimit)).settle

/-- ANSWER_ACCEPTED (R25). -/
def execAnswerAccepted (l : Link) (s : State) : Host.Outcome State Fault Refusal :=
  .next (match (s.link l).exchange, (s.link l).offered with
    | some (.order _), some (.frame (.answer _)) => s.orderFrameAccepted l
    | _, _ => s)

/-- READOUT_DATA_ACCEPTED (R25 e). -/
def execReadoutDataAccepted (l : Link) (s : State) : Host.Outcome State Fault Refusal :=
  .next (match (s.link l).exchange, (s.link l).offered with
    | some (.order _), some (.frame (.data _ _ _)) => s.orderFrameAccepted l
    | _, _ => s)

/-- TRANSFER_START_ACCEPTED: wait b) ends; wait c) of a write goes on until the DATA frame (R26, R36 b, c). -/
def execTransferStartAccepted (l : Link) (s : State) : Host.Outcome State Fault Refusal :=
  .next (match (s.link l).exchange, (s.link l).offered with
    | some (.transfer _ _ writes), some (.frame (.transferStart _ _ _)) =>
      s.updLink l (fun p => LinkPort.pump s.stallLimit
        (if writes then { p with offered := none } else p.acceptFrame))
    | _, _ => s)

/-- A DATA frame of a READ is accepted: its sector is finished and its buffer EMPTY (R87, R89); the end of a drain is
the track end, or the end of the request (R18, R101). What is next on the link is offered when the waits of the step stand. -/
def State.readDelivered (s : State) (l : Link) (e : EngineNo) (index : Nat) : State :=
  let pump := fun s : State => s.updLink l (LinkPort.pump s.stallLimit)
  let s := s.updLink l LinkPort.acceptFrame
  match (s.engine e).service with
  | none => pump s
  | some v =>
    let k := (v.start.number + index) % 32
    let s := s.updEngine e (Engine.emptied k)
    let s := s.updRequest v.drive v.request (fun r => { r with done := r.done + 1 })
    let g := s.engine e
    if g.phase = .flushing ∧ g.holdsSectors = false then
      (pump (if g.ending.isSome then s.boundary e else s.trackEnd e)).settle
    else pump s

/-- READ_DATA_ACCEPTED (R87, R94). -/
def execReadDataAccepted (l : Link) (s : State) : Host.Outcome State Fault Refusal :=
  .next (match (s.link l).exchange, (s.link l).offered with
    | some (.transfer e _ _), some (.frame (.data _ i _)) => s.readDelivered l e i
    | _, _ => s)

/-- The frame leaves the head of the report queue: slot and GAP, then tag, then link (R158). -/
def State.reportTaken (s : State) (l : Link) (h : HostNo) : State :=
  let s := s.updHost h (fun x => HostState.slotFreed s.time { x with queue := x.queue.tail, reportLink := none })
  (s.endExchange l).settle

/-- REPORT_ACCEPTED (R27, R158). -/
def execReportAccepted (l : Link) (s : State) : Host.Outcome State Fault Refusal :=
  .next (match (s.link l).exchange, (s.link l).offered with
    | some (.report h), some (.frame (.report _)) => s.reportTaken l h
    | _, _ => s)

/-- Wait g) is over: a wait of the exchange that was due starts, and what is next is offered (R24, R36 g). -/
def LinkPort.busyOver (limit : Nat) (p : LinkPort) : LinkPort :=
  let p := { p with offered := none }
  let p := match p.stall with
    | some ⟨.linkBusy, _⟩ => { p with stall := p.due.map (fun w => ⟨w, limit⟩), due := none }
    | _ => p
  LinkPort.pump limit p

/-- LINK_BUSY_ACCEPTED (R24, R36 g). -/
def execLinkBusyAccepted (l : Link) (s : State) : Host.Outcome State Fault Refusal :=
  .next (if (s.link l).busyOffered then (s.updLink l (LinkPort.busyOver s.stallLimit)).deliverAll else s)

/-! ### DATA frames of a write -/

/-- A DATA frame for a WRITE fills an EMPTY buffer when it is the next to take on this track, one for an UPDATE fills
buffer 2 (R88, R97). Of two EMPTY buffers a WRITE's frame takes buffer 1, which R88 leaves open (log entry 22). -/
def Engine.take (g : Engine) (v : Service) (index : Nat) (data : List Byte) : Option Engine :=
  let n := v.start.number + index
  let k := n % 32
  match v.kind with
  | .write =>
    if index = v.nextTake ∧ n / 32 = v.logical.number ∧ k ≤ v.last then
      let g' := { g with service := some { v with nextTake := v.nextTake + 1 } }
      match g.buf1, g.buf2 with
      | .empty, _ => some { g' with buf1 := .full k data }
      | _, .empty => some { g' with buf2 := .full k data }
      | _, _ => none
    else none
  | .update => if index = 0 ∧ g.buf2 = .empty then some { g with buf2 := .full k data } else none
  | _ => none

/-- WRITE_DATA_TAKEN: a frame no exchange expects is discarded (R22 c, R88, R97); wait c) ends with the frame (R36 c). -/
def execWriteDataTaken (l : Link) (tag : Byte) (index : BitVec 16) (data : List Byte) (s : State) :
    Host.Outcome State Fault Refusal :=
  .next (match (s.link l).exchange with
    | some (.transfer e t true) =>
      let g := s.engine e
      match g.service with
      | some v =>
        if t = tag ∧ g.ending = none ∧ g.cut = false then
          match g.take v index.toNat data with
          | some g' => (s.updEngine e (fun _ => g')).updLink l (fun p => LinkPort.boundBusy s.stallLimit p.stopWait)
          | none => s
        else s
      | none => s
    | _ => s)

/-! ### The stall timer -/

/-- The timer has run out: it stops, and a LINK-BUSY answer it bounded is withdrawn (R36 g, R37). The LINK-BUSY answers still
due behind a frame stay due and are offered next, which R24 and R36 g) leave open (log entry 15). -/
def LinkPort.expire (p : LinkPort) : LinkPort :=
  { p with stall := none, offered := if p.busyOffered then none else p.offered }

/-- What the expiry of a wait ends (R37 a to g). -/
def State.stalled (s : State) (l : Link) (w : Wait) : State :=
  match w with
  | .chain => s.discardChain l
  | .readFrame | .writeFrame =>
    match s.engineOnLink l with
    | some e => s.cutTransfer e (.event .linkStall)
    | none => s
  | .image =>
    match (s.link l).exchange with
    | some (.order x) =>
      (s.updLink l (fun p => { p with exchange := some (.order { x with stage := .answering }) })).refuse l x.tag .format
        FormatDetail.missingData.bytes
    | _ => s
  | .answer => s.endExchange l
  | .report =>
    match (s.link l).exchange with
    | some (.report h) => (s.dropReport h).endExchange l
    | _ => s
  | .linkBusy => s.updLink l (fun p => { p with stall := p.due.map (fun w => ⟨w, s.stallLimit⟩), due := none })

/-- STALL_TIMEOUT: the stall timer of a link, if it runs, expires (R37). -/
def execStallTimeout (l : Link) (s : State) : Host.Outcome State Fault Refusal :=
  .next (match (s.link l).stall with
    | none => s
    | some t =>
      (((s.updLink l LinkPort.expire).stalled l t.wait).updLink l (LinkPort.pump s.stallLimit)).settle)

end Sys2Proof.Machine
end

