-- ==== Sys2Proof/Machine/Maps.lean ====
section
/-! DEFINITION. The four forms of EDIT MAP (R116 to R121, R9). -/
namespace Sys2Proof.Machine

/-- The ANSWER BUSY-TRACK with the logical track concerned (R116). -/
def State.refuseBusy (s : State) (l : Link) (tag : Byte) (t : Track) : State :=
  s.refuse l tag .busyTrack (trackDetail t)

/-- Some request of a drive queue touches a logical track (R117). -/
def Drive.touched (dr : Drive) (t : Track) : Bool := dr.queue.any (fun r => r.touches t)

/-- The primary track an EDIT MAP names (section 11.1). -/
def imageTrack (f : OrderFrame) : Track := ⟨imageWord f 16, imageByte f 18⟩

/-- The conditions of ADD before its touch condition (R118). -/
def SpareMap.addConditions (m : SpareMap) (t : Track) (a : Nat) : List (Bool × InvalidReason) :=
  [(decide (m.lastCylinder < t.cyl), .primaryRange), ((m.entry? t).isSome, .entryExists),
   (m.altState a != .free, .notFree)]

/-- A map with the entry of an ADD (R118). -/
def SpareMap.added (m : SpareMap) (t : Track) (a : Nat) : SpareMap :=
  { m with entries := insertEntry ⟨t, a, .active, [], .host, 0⟩ m.entries }.setAlt a .assigned

/-- EDIT MAP ADD carried out (R118). -/
def State.editMapAdd (s : State) (l : Link) (f : OrderFrame) : State :=
  let d := orderDrive f
  let t := imageTrack f
  let a := imageByte f 19
  match firstReason ((s.drive d).map.addConditions t a) with
  | some r => s.refuseEdit l f.tag r
  | none =>
    if (s.drive d).touched t then s.refuseBusy l f.tag t
    else (s.updDrive d (fun dr => { dr with map := dr.map.added t a })).complete l f.tag

/-- A map without the entry of a track; its alternates are FREE (R119). -/
def SpareMap.removed (m : SpareMap) (e : Entry) : SpareMap :=
  { m with entries := m.entries.filter (fun x => x.primary != e.primary) }.setAlts e.names .free

/-- EDIT MAP REMOVE carried out (R119). -/
def State.editMapRemove (s : State) (l : Link) (f : OrderFrame) : State :=
  let d := orderDrive f
  let t := imageTrack f
  match (s.drive d).map.entry? t with
  | none => s.refuseEdit l f.tag .noEntry
  | some e =>
    if (s.drive d).map.isCopying t || (s.drive d).touched t then s.refuseBusy l f.tag t
    else (s.updDrive d (fun dr => { dr with map := dr.map.removed e })).complete l f.tag

/-- EDIT MAP RETIRE carried out (R120). -/
def State.editMapRetire (s : State) (l : Link) (f : OrderFrame) : State :=
  let d := orderDrive f
  let a := imageByte f 19
  match (s.drive d).map.altState a with
  | .assigned => s.refuseEdit l f.tag .notFree
  | .free => (s.updDrive d (fun dr => { dr with map := dr.map.setAlt a .retired })).complete l f.tag
  | .retired => s.complete l f.tag

/-- The cleared map, bound to a record (R9, R121). -/
def reboundMap (n : Fin 1000000) (t : DriveType) : SpareMap := { SpareMap.empty with bound := some (n, t) }

/-- The logical start of the oldest request that keeps a REBIND from a position (R121): the head of its queue, or the
request of the copy in progress there, which a STRING RESET has taken from the queue while its engine finishes a sector
(R130 d; log entry 20). On a drive that DRIVE ONLINE has taken from OFFLINE to INCOMPATIBLE the head may be a request that R8
has not there (log entry 23). -/
def State.rebindBusy (s : State) (d : DriveNo) : Option Addr :=
  match (s.drive d).queue, s.copy with
  | r :: _, _ => some r.start
  | [], some c => if c.drive = d then some (c.logical.addr 0) else none
  | [], none => none

/-- EDIT MAP REBIND carried out (R9, R121): a drive INCOMPATIBLE by its map recalibrates. -/
def State.editMapRebind (s : State) (l : Link) (f : OrderFrame) : State :=
  let d := orderDrive f
  let dr := s.drive d
  match dr.cap with
  | none => s.refuseEdit l f.tag .noRecord
  | some c =>
    match typeOfCode c.code with
    | none => s.refuseEdit l f.tag .unknownType
    | some t =>
      match s.rebindBusy d with
      | some a => s.refuse l f.tag .busyTrack (addrDetail a)
      | none =>
        let old := dr.state.condition
        ((s.updDrive d (fun dr =>
          let dr := { dr with map := reboundMap c.serial t }
          if dr.state = .incompatible then dr.recalibrate else dr)).noticeCondition d old).complete l f.tag

/-- EDIT MAP ADD (R118). -/
def execEditMapAdd (l : Link) (f : OrderFrame) (s : State) : Host.Outcome State Fault Refusal :=
  .next (s.takeOrder l .editMap f (fun s => s.editMapAdd l f))

/-- EDIT MAP REMOVE (R119). -/
def execEditMapRemove (l : Link) (f : OrderFrame) (s : State) : Host.Outcome State Fault Refusal :=
  .next (s.takeOrder l .editMap f (fun s => s.editMapRemove l f))

/-- EDIT MAP RETIRE (R120). -/
def execEditMapRetire (l : Link) (f : OrderFrame) (s : State) : Host.Outcome State Fault Refusal :=
  .next (s.takeOrder l .editMap f (fun s => s.editMapRetire l f))

/-- EDIT MAP REBIND (R121). -/
def execEditMapRebind (l : Link) (f : OrderFrame) (s : State) : Host.Outcome State Fault Refusal :=
  .next (s.takeOrder l .editMap f (fun s => s.editMapRebind l f))

end Sys2Proof.Machine
end

