-- ==== Sys2Proof/Machine/History.lean ====
section
/-! DEFINITION. The recording of outcomes in the error history (R137 to R141). -/
namespace Sys2Proof.Machine

/-- Kinds of outcome handed to the history (R93, R138). -/
inductive OutcomeKind where
  | corrected | retried | unrecovered
  deriving DecidableEq, Repr

/-- The entry of a drive's physical track. -/
def HistEntry.isFor (d : DriveNo) (t : Track) (e : HistEntry) : Bool := e.drive == d && e.track == t

/-- An outcome added to an entry (R138 a). -/
def HistEntry.count (now : Time) (k : Nat) (kind : OutcomeKind) (e : HistEntry) : HistEntry :=
  let e := { e with lastSector := k, lastSeen := now }
  match kind with
  | .corrected => { e with corrected := saturate 255 (e.corrected + 1) }
  | .retried => { e with retried := saturate 255 (e.retried + 1) }
  | .unrecovered => { e with unrecovered := saturate 255 (e.unrecovered + 1), suspect := true }

/-- A fresh entry before its first outcome (R138 b). -/
def HistEntry.fresh (d : DriveNo) (t : Track) (now : Time) : HistEntry := ⟨d, t, 0, 0, 0, 0, now, now, false, false⟩

/-- Lexicographic order of lists of numbers. -/
def lexLess : List Nat → List Nat → Bool
  | x :: xs, y :: ys => decide (x < y) || (x == y && lexLess xs ys)
  | _, _ => false

/-- What orders victims: least total first, then greatest age (R139), then least key. The age is measured back from
the present string time, modulo 2^24. -/
def HistEntry.rank (now : Time) (e : HistEntry) : List Nat :=
  [e.corrected + e.retried + e.unrecovered, 16777215 - (now - e.lastSeen).toNat, e.drive.toNat, e.track.cyl, e.track.head]

/-- The first entry of least rank. -/
def leastRank (now : Time) : List HistEntry → Option HistEntry
  | [] => none
  | e :: rest =>
    match leastRank now rest with
    | none => some e
    | some b => if lexLess (b.rank now) (e.rank now) then some b else some e

/-- The victim of a full table (R139). -/
def victim (now : Time) (es : List HistEntry) : Option HistEntry := leastRank now (es.filter (fun e => !e.sparePending))

/-- The outcome is recorded, or counted as overflow (R138, R139). -/
def State.recordOutcome (s : State) (d : DriveNo) (t : Track) (k : Nat) (kind : OutcomeKind) : State :=
  let new := (HistEntry.fresh d t s.time).count s.time k kind
  if s.history.any (HistEntry.isFor d t) then
    { s with history := s.history.map (fun e => if e.isFor d t then e.count s.time k kind else e) }
  else if s.history.length < Config.historyLimit then { s with history := s.history ++ [new] }
  else match victim s.time s.history with
    | some v => { s with history := s.history.filter (fun e => !e.isFor v.drive v.track) ++ [new] }
    | none => { s with overflow := saturate 255 (s.overflow + 1) }

/-- The logical track whose data lies on a physical track, when it lies there now (R141 e). -/
def State.liesOn (s : State) (d : DriveNo) (t : Track) : Option Track :=
  match reverse (s.drive d).type (s.drive d).map t with
  | some u => if s.translate d u = t then some u else none
  | none => none

/-- The threshold test after a recorded recovered outcome (R141). It asks on an OFFLINE drive too, whose engine still finishes
a sector under DRIVE OFFLINE (R104): that the AUTO-REASSIGN then stands in the OFFLINE drive's queue, which the note of R16
and R17 have empty, is the model's choice (log entry 23). -/
def State.thresholdTest (s : State) (d : DriveNo) (t : Track) : State :=
  match s.history.find? (HistEntry.isFor d t), s.liesOn d t with
  | some e, some u =>
    if s.settings.spareThreshold ≤ e.corrected + e.retried ∧ e.sparePending = false ∧ (s.driveSettings d).autoSpare = true ∧
        s.mode = .online then
      { s with history := s.history.map (fun e : HistEntry => if e.isFor d t then { e with sparePending := true } else e) }.askAuto d ⟨u, t⟩
    else s
  | _, _ => s

/-- The SUSPECT notice of an unrecovered outcome (R140). -/
def State.suspectNotice (s : State) (d : DriveNo) (t : Track) (k : Nat) : State :=
  let logical := reverse (s.drive d).type (s.drive d).map t
  let n := match s.history.find? (HistEntry.isFor d t) with
    | some e => e.unrecovered
    | none => 0
  s.raise .s d ⟨.suspect, d, logical, some k, some t⟩ (.suspect d t logical k n)

/-- An outcome other than CLEAN is handed to the history (R93, R138, R140, R141). -/
def State.outcome (s : State) (d : DriveNo) (t : Track) (k : Nat) (kind : OutcomeKind) : State :=
  let s := s.recordOutcome d t k kind
  match kind with
  | .unrecovered => s.suspectNotice d t k
  | _ => s.thresholdTest d t

end Sys2Proof.Machine
end

