-- ==== Sys2Proof/Machine/Transfer.lean ====
section
/-! DEFINITION. Orientation points and misses (R78 to R80), and the flow of sectors through an engine: starts (R87,
R88, R97, R100), the classification and ends of reads (R90 to R95, R104, R127) and the ends of writes (R88, R96, R97,
R113, R128). -/
namespace Sys2Proof.Machine

/-! ### Orientation points -/

/-- A transfer needs a link: host requests but the copy phases of a REASSIGN (R79). -/
def Request.needsLink (r : Request) : Bool := r.issuer.isSome && !r.kind.reassigns

/-- The last sector an engine serves on a track (R89, R127, R128). -/
def State.lastSector (s : State) (r : Request) : Nat :=
  match s.ownCopy r.id with
  | some c => ((SectorSet.members (s.copyLeft c)).getLast?).getD 31
  | none =>
    let last := r.start.number + (r.count - 1)
    if last / 32 = r.next.track.number then last % 32 else 31

/-- A miss (R80): at the M-th the request gives up the arm. -/
def State.miss (s : State) (d : DriveNo) (r : Request) : State :=
  if r.misses + 1 < s.settings.missLimit then s.updRequest d r.id (fun r => { r with misses := r.misses + 1 })
  else (s.updRequest d r.id (fun r =>
    { r with state := .queued, passes := saturate s.settings.forced (r.passes + 1), misses := 0 })).updDrive d Drive.freeArm

/-- The record of an engine granted to a request (R85, R86). -/
def State.granted (s : State) (d : DriveNo) (r : Request) (t : Track) (link : Option Link) : Engine :=
  { service := some ⟨r.id, d, r.kind, r.issuer, link, r.start, r.next.track, t, some (s.requestSector r), s.lastSector r, r.done⟩,
    buf1 := .empty, buf2 := .empty, retry := 0, markC := r.markC, markT := r.markT, phase := .awaiting, writing := false,
    ending := none, cut := false }

/-- The kind takes DATA frames from the host (R26 b, c). -/
def ReqKind.takesData (k : ReqKind) : Bool := k == .write || k == .update

/-- The transfer begins (R79 step 3): engine, request and drive, and TRANSFER-START on the link of a host request. -/
def State.grant (s : State) (d : DriveNo) (r : Request) (t : Track) (e : EngineNo) (link : Option Link) : State :=
  let g := s.granted d r t link
  let s := s.updEngine e (fun _ => g)
  let s := s.updRequest d r.id (fun r => { r with state := .transferring, misses := 0 })
  let s := s.updDrive d (fun dr => dr.enter .transferring)
  match link, r.issuer with
  | some l, some i =>
    s.updLink l (LinkPort.openExchange s.stallLimit (.transfer e i.tag r.kind.takesData) [.transferStart i.tag r.next r.done])
  | _, _ => s

/-- The first free engine (R79 step 2). -/
def State.freeEngine (s : State) : Option EngineNo := EngineNo.all.find? (fun e => (s.engine e).isFree)

/-- The request asks for what its transfer needs (R79). -/
def State.atPoint (s : State) (d : DriveNo) (r : Request) (t : Track) : State :=
  let link := r.host.bind s.idleLink
  if r.needsLink && link.isNone then s.miss d r
  else match s.freeEngine with
    | none => s.miss d r
    | some e => s.grant d r t e (if r.needsLink then link else none)

/-- The drive stands at the orientation point of its arm holder, and the arrival has not been dealt with (R78): the holder
and its arm target. -/
def State.pointOf (s : State) (d : DriveNo) : Option (Request × Track) :=
  let dr := s.drive d
  match dr.holder, dr.armTarget with
  | some r, some t =>
    if dr.state = .orienting ∧ r.state = .orienting ∧ dr.pointMet = false ∧
        dr.slot = some (orientationSlot s.settings.lead t (s.requestSector r)) then some (r, t)
    else none
  | _, _ => none

/-- A drive that stands at its orientation point asks, once for the arrival (R78, R79). -/
def State.servePoint (s : State) (d : DriveNo) : State :=
  match s.pointOf d with
  | some (r, t) => (s.updDrive d (fun dr => { dr with pointMet := true })).atPoint d r t
  | none => s

/-- The drives of lower number. -/
def drivesBelow (d : DriveNo) : List DriveNo := DriveNo.all.take d.toNat

/-- ORIENTATION_POINT: acts when the drive's slot is the orientation point of its arm holder and the arrival has not been
dealt with (R78). Drives of lower number that stand at their own points reach the arbiter together with it and ask first
(R79; log entry 14). -/
def execOrientationPoint (d : DriveNo) (s : State) : Host.Outcome State Fault Refusal :=
  .next (if (s.pointOf d).isSome then (((drivesBelow d).foldl State.servePoint s).servePoint d).settle else s)

/-! ### Moving on -/

/-- The engine waits for a sector: retries start at 0 (R92). -/
def Engine.await (g : Engine) (k : Nat) : Engine :=
  { g with phase := .awaiting, retry := 0, service := g.service.map (fun v => { v with current := some k }) }

/-- The next sector of the track, or the end of it (R87 a, R89). -/
def State.passOn (s : State) (e : EngineNo) (v : Service) (k : Nat) (atEnd : State → State) : State :=
  if k < v.last then s.updEngine e (fun g => g.await (k + 1)) else atEnd s

/-- The end of a PATROL (R99 a, R146 a). -/
def State.patrolEnd (s : State) (e : EngineNo) (v : Service) : State := s.endTransfer e v (fun r => r.finished v.drive)

/-- A sector of a host order is finished (R89). -/
def State.sectorDone (s : State) (v : Service) : State :=
  s.updRequest v.drive v.request (fun r => { r with done := r.done + 1 })

/-- The read phase ends: WRITE, at the destination, or the copy ends with nothing captured (R127). -/
def State.readPhaseEnd (s : State) (e : EngineNo) (v : Service) (c : CopyRecord) : State :=
  let s := s.release e
  let c := { c with phase := CopyPhase.write }
  let s := { s with copy := some c }
  match (s.drive v.drive).request? v.request with
  | none => s.updDrive v.drive Drive.freeArm
  | some r => if c.captured = 0 then s.endCopy c r else s.position v.drive r.id (s.copyTrack c)

/-- The write phase ends, and the copy with it (R128, R131). -/
def State.writePhaseEnd (s : State) (e : EngineNo) (v : Service) (c : CopyRecord) : State :=
  let s := s.release e
  match (s.drive v.drive).request? v.request with
  | none => s.updDrive v.drive Drive.freeArm
  | some r => s.endCopy c r

/-- A copy goes on with the next sector of its phase after sector k, or its phase ends (R127, R128). -/
def State.copyOn (s : State) (e : EngineNo) (v : Service) (k : Nat) : State :=
  match s.engineCopy v with
  | none => s
  | some c =>
    match SectorSet.above (s.copyLeft c) k with
    | some j => s.updEngine e (fun g => g.await j)
    | none => match c.phase with
      | .read => s.readPhaseEnd e v c
      | .write => s.writePhaseEnd e v c

/-! ### Sector starts -/

/-- A sector begins to pass under the head. -/
def Engine.stream (writing : Bool) (g : Engine) : Engine := { g with phase := .streaming, writing := writing }

/-- A read of sector k begins when a buffer is EMPTY; otherwise the sector is lost (R87). Of two EMPTY buffers it takes buffer 1,
which R87 leaves open (log entry 22). -/
def Engine.startRead (k : Nat) (g : Engine) : Engine :=
  match g.buf1, g.buf2 with
  | .empty, _ => { g.stream false with buf1 := .filling k }
  | _, .empty => { g.stream false with buf2 := .filling k }
  | _, _ => { g with phase := .lostRevolution }

/-- The data a buffer holds for a sector. -/
def Buffer.dataOf (k : Nat) (b : Buffer) : Option (List Byte) :=
  match b with
  | .full j xs => if j = k then some xs else none
  | _ => none

/-- A write of a sector begins on the string bus (R1, R88). -/
def State.startWrite (s : State) (e : EngineNo) (v : Service) (k : Nat) (data : List Byte) : State :=
  (s.updEngine e (Engine.stream true)).updDrive v.drive
    (fun dr => dr.send (.writeSector v.track k data (Config.checkField data)))

/-- The merge of an UPDATE: bytes of the host's frame replace bytes of the sector (R97 step 2). -/
def merge (offset length : Nat) (sector frame : List Byte) : List Byte :=
  sector.take offset ++ frame.take length ++ sector.drop (offset + length)

/-- The start of an UPDATE's sector: its read, its write-back, or a lost revolution (R97). -/
def State.startUpdate (s : State) (e : EngineNo) (v : Service) (k : Nat) : State :=
  let g := s.engine e
  match g.buf1 with
  | .empty => s.updEngine e (fun g => { g.stream false with buf1 := .filling k })
  | .full _ sector =>
    match g.buf2, (s.drive v.drive).request? v.request with
    | .full _ frame, some r => s.startWrite e v k (merge r.offset r.length sector frame)
    | _, _ => s.updEngine e (fun g => { g with phase := .lostRevolution })
  | .filling _ => s

/-- The start of a copy's sector (R88, R99 b, R127, R128). In the write phase a buffer takes the sector from the track buffer
and is FULL while the sector is written from it; that it takes it at the start slot is the model's choice, and so is buffer 1 in
either phase (log entry 22). -/
def State.startCopy (s : State) (e : EngineNo) (v : Service) (k : Nat) : State :=
  match s.engineCopy v with
  | none => s
  | some c =>
    match c.phase with
    | .read => s.updEngine e (fun g => { g.stream false with buf1 := .filling k })
    | .write =>
      match c.places.find? (fun x => x.1 == k) with
      | some x => (s.updEngine e (fun g => { g with buf1 := .full k x.2 })).startWrite e v k x.2
      | none => s

/-- The start slot of the current sector arrives (R87, R88, R97, R99, R100). The void check comes first: a READ with both
buffers FULL ends at a void sector and does not lose it for the revolution, where R87 b) and R100 a) give no precedence (log
entry 24). -/
def State.sectorStart (s : State) (e : EngineNo) (v : Service) (k : Nat) : State :=
  let void := (s.drive v.drive).map.isVoid v.logical k
  match v.kind with
  | .read => if void then s.interrupt e (.failing .voidSector) else s.updEngine e (Engine.startRead k)
  | .verify => if void then s.interrupt e (.failing .voidSector) else s.updEngine e (Engine.startRead k)
  | .patrol => if void then s.passOn e v k (fun s => s.patrolEnd e v) else s.updEngine e (Engine.startRead k)
  | .update => if void then s.interrupt e (.failing .voidSector) else s.startUpdate e v k
  | .write =>
    match (s.engine e).buf1.dataOf k, (s.engine e).buf2.dataOf k with
    | some xs, _ => s.startWrite e v k xs
    | none, some xs => s.startWrite e v k xs
    | none, none => s.updEngine e (fun g => { g with phase := .lostRevolution })
  | .reassign => s.startCopy e v k
  | .autoReassign => s.startCopy e v k

/-- Phases in which the engine waits for the start slot of its current sector (R85). -/
def Phase.waits : Phase → Bool
  | .awaiting | .retryRevolution | .lostRevolution | .mergeRevolution => true
  | _ => false

/-- SECTOR_START: acts when the drive's slot is the start slot of the engine's current sector (R1, R87). -/
def execSectorStart (e : EngineNo) (s : State) : Host.Outcome State Fault Refusal :=
  .next (
    let g := s.engine e
    match g.service with
    | some v =>
      match v.current with
      | some k =>
        if g.phase.waits = true ∧ g.ending = none ∧ (s.drive v.drive).slot = some (startSlot k v.track.head) then
          (s.sectorStart e v k).settle
        else s
      | none => s
    | none => s)

/-! ### Classification (R90) -/

/-- The classes of R90; a correctable sector with its restored data bytes. -/
inductive SectorClass where
  | clean
  | correctable (data : List Byte)
  | uncorrectable
  deriving DecidableEq, Repr

/-- The bits a burst covers in the byte at position i. R90 counts a burst over the data bytes and the check field taken
together and gives the bits no order: they are counted byte by byte, the most significant bit of a byte first (log entry
3). -/
def burstMask (b : Burst) (i : Nat) : Byte :=
  (List.range 11).foldl (fun m j =>
    if b.pattern.getLsbD j && (b.start + j) / 8 == i then m ^^^ ((0x80#8) >>> ((b.start + j) % 8)) else m) 0

/-- The data bytes with a burst restored. -/
def fixData (b : Burst) (data : List Byte) : List Byte := data.mapIdx (fun i x => x ^^^ burstMask b i)

/-- The check field with a burst restored: it follows the data bytes, its most significant byte first, an order that R90
leaves open (log entry 3). -/
def fixCheck (b : Burst) (check : BitVec 32) : BitVec 32 :=
  check ^^^ (burstMask b 512 ++ burstMask b 513 ++ burstMask b 514 ++ burstMask b 515)

/-- A single burst of at most 11 bits explains the disagreement of data bytes and check field: with the bits it covers
restored the two agree (R90 b). -/
def explains (data : List Byte) (check : BitVec 32) (b : Burst) : Bool :=
  b.wf && Config.checkField (fixData b data) == fixCheck b check

/-- Every burst of at most 11 bits that lies within a sector and its check field, once, its first bit in error. -/
def allBursts : List Burst :=
  ((List.range 4128).map (fun n => (List.range 2048).map (fun p => (⟨n, BitVec.ofNat 11 p⟩ : Burst)))).flatten.filter Burst.wf

/-- The burst by which the engine corrects a sector (R90 b): the one the command names when it explains the reading, else
one that does, a free value where there are several (log entry 3); none when no burst explains it (R90 c). -/
def burstFound (data : List Byte) (check : BitVec 32) (burst : Option Burst) : Option Burst :=
  match burst.filter (explains data check) with
  | some b => some b
  | none =>
    let found := allBursts.filter (explains data check)
    found[Config.burstChoice data check % found.length]?

/-- The classification of a sector as read (R90). -/
def classify (data : List Byte) (check : BitVec 32) (burst : Option Burst) : SectorClass :=
  if Config.checkField data = check then .clean
  else match burstFound data check burst with
    | some b => .correctable (fixData b data)
    | none => .uncorrectable

/-- What becomes of a reading (R91, R92): delivered with its outcome, retried, or unrecovered. -/
inductive Verdict where
  | delivered (data : List Byte) (kind : Option OutcomeKind)
  | retried
  | unrecovered
  deriving DecidableEq, Repr

/-- A reading that fails: retried below the limit (R92). -/
def failed (retry limit : Nat) : Verdict := if retry < limit then .retried else .unrecovered

/-- The verdict by the drive's ECC mode, the retries so far and the retry limit (R91, R92, R93). -/
def verdict (mode : EccMode) (retry limit : Nat) (data : List Byte) (cls : SectorClass) : Verdict :=
  let again : Option OutcomeKind := if 0 < retry then some .retried else none
  match mode, cls with
  | .off, _ => .delivered data none
  | .detect, .clean => .delivered data again
  | .detect, _ => failed retry limit
  | .correct, .clean => .delivered data again
  | .correct, .correctable fixed => .delivered fixed (if 0 < retry then some .retried else some .corrected)
  | .correct, .uncorrectable => failed retry limit

/-! ### Ends of reads -/

/-- The final outcome of a verdict, if it is other than CLEAN (R93). -/
def Verdict.outcome : Verdict → Option OutcomeKind
  | .delivered _ k => k
  | .retried => none
  | .unrecovered => some .unrecovered

/-- An outcome of a READ, VERIFY, UPDATE or PATROL goes to the error history; those of a copy do not (R93). -/
def State.report (s : State) (v : Service) (k : Nat) (o : Option OutcomeKind) : State :=
  match o with
  | some kind => if v.kind.reassigns then s else s.outcome v.drive v.track k kind
  | none => s

/-- The recovery mark of a delivered sector, with the first sector recovered under its class (R93, R103). -/
def Engine.mark (a : Addr) (kind : Option OutcomeKind) (g : Engine) : Engine :=
  match kind with
  | some .corrected => { g with markC := some (g.markC.getD a) }
  | some .retried => { g with markT := some (g.markT.getD a) }
  | _ => g

/-- The FILLING buffer becomes another. -/
def Engine.fill (b : Buffer) (g : Engine) : Engine :=
  match g.buf1, g.buf2 with
  | .filling _, _ => { g with buf1 := b }
  | _, .filling _ => { g with buf2 := b }
  | _, _ => g

/-- A checked sector of a READ stands in its buffer, and its DATA frame is offered in its turn (R87, R94). -/
def State.deliverSector (s : State) (e : EngineNo) (v : Service) (k : Nat) (data : List Byte) : State :=
  let s := s.updEngine e (Engine.fill (.full k data))
  match v.link, v.issuer with
  | some l, some i =>
    s.updLink l (fun p => LinkPort.pump s.stallLimit
      { p with toSend := p.toSend ++ [.data i.tag ((v.logical.addr k).number - v.start.number) data] })
  | _, _ => s

/-- Sector k of a copy's source is captured (R127). -/
def CopyRecord.capture (c : CopyRecord) (k : Nat) (data : List Byte) : CopyRecord :=
  { c with captured := SectorSet.add c.captured k, places := c.places ++ [(k, data)] }

/-- A delivered sector passes on, by the kind of its request (R91, R94, R95, R97, R99, R127). An UPDATE's sector stays the
engine's current one until its write-back, and its retry count with it (R85, R97). -/
def State.delivered (s : State) (e : EngineNo) (v : Service) (k : Nat) (data : List Byte) : State :=
  match v.kind with
  | .read =>
    (s.deliverSector e v k data).passOn e v k (fun s => s.drain e)
  | .verify => ((s.updEngine e (Engine.fill .empty)).sectorDone v).passOn e v k (fun s => s.trackEnd e)
  | .patrol => (s.updEngine e (Engine.fill .empty)).passOn e v k (fun s => s.patrolEnd e v)
  | .update => s.updEngine e (fun g => { g.fill (.full k data) with phase := .mergeRevolution })
  | .write => s
  | .reassign | .autoReassign =>
    match s.engineCopy v with
    | some c => ({ s.updEngine e (Engine.fill .empty) with copy := some (c.capture k data) }).copyOn e v k
    | none => s

/-- An unrecovered sector, by the kind of its request (R94, R95, R98, R99, R127). -/
def State.unrecovered (s : State) (e : EngineNo) (v : Service) (k : Nat) : State :=
  let s := s.updEngine e (fun g => { g.fill .empty with phase := .awaiting })
  match v.kind with
  | .read | .verify | .update => s.interrupt e (.failing .dataCheck)
  | .patrol => s.passOn e v k (fun s => s.patrolEnd e v)
  | .write => s
  | .reassign | .autoReassign =>
    match s.engineCopy v with
    | some c => { s with copy := some { c with unrecovered := SectorSet.add c.unrecovered k } }.copyOn e v k
    | none => s

/-- A read sector ends under an event that ends the engine's work: not retried, and delivered under DRIVE OFFLINE
alone, where a VERIFY counts it and a READ drains it (R18, R104). -/
def State.lastRead (s : State) (e : EngineNo) (v : Service) (k : Nat) (x : Verdict) : State :=
  let s := match (s.engine e).ending, x, v.kind with
    | some .offline, .delivered data _, .read =>
      if (s.engine e).cut then s.updEngine e (Engine.fill .empty) else s.deliverSector e v k data
    | some .offline, .delivered _ _, .verify => (s.updEngine e (Engine.fill .empty)).sectorDone v
    | _, _, _ => s.updEngine e (Engine.fill .empty)
  s.stopOrDrain e

/-- The check field of a read sector has passed, and its class is known. -/
def State.readEnds (s : State) (e : EngineNo) (v : Service) (k : Nat) (data : List Byte) (cls : SectorClass) : State :=
  let st := s.driveSettings v.drive
  let x := verdict st.ecc (s.engine e).retry st.retries data cls
  let s := s.updEngine e (Engine.mark (v.logical.addr k) x.outcome)
  let s := s.report v k x.outcome
  if (s.engine e).ending.isSome then s.lastRead e v k x
  else match x with
    | .delivered data _ => s.delivered e v k data
    | .retried => s.updEngine e (fun g => { g.fill .empty with phase := .retryRevolution, retry := g.retry + 1 })
    | .unrecovered => s.unrecovered e v k

/-- The meaning of SECTOR_READ_END for a sector of a known class. -/
def State.sectorReadEndWith (s : State) (e : EngineNo) (data : List Byte) (cls : SectorClass) : State :=
  let g := s.engine e
  match g.service with
  | some v =>
    match v.current with
    | some k => if g.phase = .streaming ∧ g.writing = false then (s.readEnds e v k data cls).settle else s
    | none => s
  | none => s

/-- SECTOR_READ_END (R90 to R95, R97 to R101, R104, R127). -/
def execSectorReadEnd (e : EngineNo) (data : List Byte) (check : BitVec 32) (burst : Option Burst) (s : State) :
    Host.Outcome State Fault Refusal :=
  .next (s.sectorReadEndWith e data (classify data check burst))

/-! ### Ends of writes -/

/-- A completed write of a WRITE on a VOID alternate adds its sector to the validity set; full, the entry is ACTIVE
(R96, R113 b). -/
def SpareMap.writeDone (m : SpareMap) (t : Track) (k : Nat) : SpareMap :=
  m.updEntry t (fun e => match e.state with
    | .void v => { e with state := settledState (SectorSet.add v k) }
    | _ => e)

/-- A write of the copy adds its sector to the set of the COPYING entry (R113 c, R128). -/
def SpareMap.copyDone (m : SpareMap) (t : Track) (k : Nat) : SpareMap :=
  m.updEntry t (fun e => match e.state with
    | .copying v => { e with state := .copying (SectorSet.add v k) }
    | _ => e)

/-- A frame of the order on this track is still to be taken (R88). -/
def Service.framesToCome (v : Service) : Bool :=
  let n := v.start.number + v.nextTake
  n / 32 == v.logical.number && decide (n % 32 ≤ v.last)

/-- A written sector of a WRITE: done, its buffer EMPTY, valid on a VOID alternate; the freed buffer starts wait c) for
the next frame of the track (R36 c, R88, R113). -/
def State.writeDone (s : State) (e : EngineNo) (v : Service) (k : Nat) : State :=
  let s := (s.sectorDone v).updDrive v.drive (fun dr => { dr with map := dr.map.writeDone v.logical k })
  let s := s.updEngine e (Engine.emptied k)
  match v.link with
  | some l =>
    if (s.engine e).ending.isNone && v.framesToCome then s.updLink l (LinkPort.startWait s.stallLimit .writeFrame) else s
  | none => s

/-- A written sector of a copy (R88, R113 c, R128): its buffer is EMPTY, and sectors done is the size of the validity set
(R126). -/
def State.copyDone (s : State) (e : EngineNo) (v : Service) (k : Nat) : State :=
  let s := (s.updDrive v.drive (fun dr => { dr with map := dr.map.copyDone v.logical k })).updEngine e (Engine.emptied k)
  let n := SectorSet.size (s.validOf v.drive v.logical)
  s.updRequest v.drive v.request (fun r => { r with done := n })

/-- The write of a sector completes (R88, R96, R97, R104, R128). -/
def State.writeEnds (s : State) (e : EngineNo) (v : Service) (k : Nat) : State :=
  let s := match v.kind with
    | .write => s.writeDone e v k
    | .update => s.sectorDone v
    | _ => s.copyDone e v k
  if (s.engine e).ending.isSome then s.boundary e
  else match v.kind with
    | .write => s.passOn e v k (fun s => s.trackEnd e)
    | .update => s.trackEnd e
    | _ => s.copyOn e v k

/-- SECTOR_WRITE_END (R88, R96, R97, R113, R128). -/
def execSectorWriteEnd (e : EngineNo) (s : State) : Host.Outcome State Fault Refusal :=
  .next (
    let g := s.engine e
    match g.service with
    | some v =>
      match v.current with
      | some k => if g.phase = .streaming ∧ g.writing = true then (s.writeEnds e v k).settle else s
      | none => s
    | none => s)

end Sys2Proof.Machine
end

