-- ==== Sys2Proof/Machine/Dispatch.lean ====
section
/-! DEFINITION. One arm for each command, each a call of its meaning. -/
namespace Sys2Proof.Machine

/-- The effect of a command on everything but the queue. -/
def exec (i : Instr) (s : State) : Host.Outcome State Fault Refusal :=
  match i with
  | .powerOn signals answering => Sys2Proof.Machine.execPowerOn signals answering s
  | .linkUp l => Sys2Proof.Machine.execLinkUp l s
  | .linkDown l => Sys2Proof.Machine.execLinkDown l s
  | .reset l => Sys2Proof.Machine.execReset l s
  | .orderOnBusyLink l tag => Sys2Proof.Machine.execOrderOnBusyLink l tag s
  | .unknownOrder l code f => Sys2Proof.Machine.execUnknownOrder l code f s
  | .frameDiscarded l bytes => Sys2Proof.Machine.execFrameDiscarded l bytes s
  | .read l f => Sys2Proof.Machine.execRead l f s
  | .write l f => Sys2Proof.Machine.execWrite l f s
  | .verify l f => Sys2Proof.Machine.execVerify l f s
  | .update l f => Sys2Proof.Machine.execUpdate l f s
  | .reassignNew l f => Sys2Proof.Machine.execReassignNew l f s
  | .reassignFill l f => Sys2Proof.Machine.execReassignFill l f s
  | .claim l f => Sys2Proof.Machine.execClaim l f s
  | .claimWithNotice l f => Sys2Proof.Machine.execClaimWithNotice l f s
  | .yield l f => Sys2Proof.Machine.execYield l f s
  | .readCheckRecord l f => Sys2Proof.Machine.execReadCheckRecord l f s
  | .beginLoad l f => Sys2Proof.Machine.execBeginLoad l f s
  | .loadSegment l f => Sys2Proof.Machine.execLoadSegment l f s
  | .endLoad l f => Sys2Proof.Machine.execEndLoad l f s
  | .abandonLoad l f => Sys2Proof.Machine.execAbandonLoad l f s
  | .readMap l f => Sys2Proof.Machine.execReadMap l f s
  | .readSnapshot l f => Sys2Proof.Machine.execReadSnapshot l f s
  | .readHistory l f => Sys2Proof.Machine.execReadHistory l f s
  | .readHistoryClear l f => Sys2Proof.Machine.execReadHistoryClear l f s
  | .readSettings l f => Sys2Proof.Machine.execReadSettings l f s
  | .editHostSet l f => Sys2Proof.Machine.execEditHostSet l f s
  | .editHostRemove l f => Sys2Proof.Machine.execEditHostRemove l f s
  | .editFence l f => Sys2Proof.Machine.execEditFence l f s
  | .editProfile l f => Sys2Proof.Machine.execEditProfile l f s
  | .editSettings l f => Sys2Proof.Machine.execEditSettings l f s
  | .editMapAdd l f => Sys2Proof.Machine.execEditMapAdd l f s
  | .editMapRemove l f => Sys2Proof.Machine.execEditMapRemove l f s
  | .editMapRetire l f => Sys2Proof.Machine.execEditMapRetire l f s
  | .editMapRebind l f => Sys2Proof.Machine.execEditMapRebind l f s
  | .quiesce l f => Sys2Proof.Machine.execQuiesce l f s
  | .resume l f => Sys2Proof.Machine.execResume l f s
  | .stringReset l f => Sys2Proof.Machine.execStringReset l f s
  | .breakClaim l f => Sys2Proof.Machine.execBreakClaim l f s
  | .driveOffline l f => Sys2Proof.Machine.execDriveOffline l f s
  | .driveOnline l f faultLine => Sys2Proof.Machine.execDriveOnline l f faultLine s
  | .imageDataTaken l tag index data => Sys2Proof.Machine.execImageDataTaken l tag index data s
  | .writeDataTaken l tag index data => Sys2Proof.Machine.execWriteDataTaken l tag index data s
  | .answerAccepted l => Sys2Proof.Machine.execAnswerAccepted l s
  | .readoutDataAccepted l => Sys2Proof.Machine.execReadoutDataAccepted l s
  | .transferStartAccepted l => Sys2Proof.Machine.execTransferStartAccepted l s
  | .readDataAccepted l => Sys2Proof.Machine.execReadDataAccepted l s
  | .reportAccepted l => Sys2Proof.Machine.execReportAccepted l s
  | .linkBusyAccepted l => Sys2Proof.Machine.execLinkBusyAccepted l s
  | .stallTimeout l => Sys2Proof.Machine.execStallTimeout l s
  | .orphanTimeout d => Sys2Proof.Machine.execOrphanTimeout d s
  | .patrolTimerExpiry d => Sys2Proof.Machine.execPatrolTimerExpiry d s
  | .seekTimeout d => Sys2Proof.Machine.execSeekTimeout d s
  | .orientationTimeout d => Sys2Proof.Machine.execOrientationTimeout d s
  | .driveAnswersPoll d => Sys2Proof.Machine.execDriveAnswersPoll d s
  | .driveLost d => Sys2Proof.Machine.execDriveLost d s
  | .capability d code serial => Sys2Proof.Machine.execCapability d code serial s
  | .index d => Sys2Proof.Machine.execIndex d s
  | .slotAdvance d => Sys2Proof.Machine.execSlotAdvance d s
  | .seekComplete d => Sys2Proof.Machine.execSeekComplete d s
  | .seekCheck d => Sys2Proof.Machine.execSeekCheck d s
  | .recalComplete d => Sys2Proof.Machine.execRecalComplete d s
  | .recalFailed d => Sys2Proof.Machine.execRecalFailed d s
  | .fault d => Sys2Proof.Machine.execFault d s
  | .orientationPoint d => Sys2Proof.Machine.execOrientationPoint d s
  | .sectorStart e => Sys2Proof.Machine.execSectorStart e s
  | .sectorReadEnd e data check burst => Sys2Proof.Machine.execSectorReadEnd e data check burst s
  | .sectorWriteEnd e => Sys2Proof.Machine.execSectorWriteEnd e s

end Sys2Proof.Machine
end

