-- ==== Sys2Proof/Machine/Tick.lean ====
section
/-! DEFINITION. One millisecond of the string clock (R173 and the timers of R36, R56, R10, R14, R144): what `step` does
on an empty queue (log entry 2). A timer's expiry is a command of its own. -/
namespace Sys2Proof.Machine

/-- A timer's count less one, while it runs. -/
def countDown (t : Option Nat) : Option Nat := t.map (fun n => n - 1)

/-- The timers of a position. -/
def Drive.tick (dr : Drive) : Drive :=
  { dr with
    seekTimer := countDown dr.seekTimer
    orientTimer := countDown dr.orientTimer
    claim := { dr.claim with orphan := countDown dr.claim.orphan }
    patrolTimer := match dr.patrolTimer with
      | .running n => .running (n - 1)
      | t => t }

/-- The stall timer of a link. -/
def LinkPort.tick (p : LinkPort) : LinkPort := { p with stall := p.stall.map (fun t => { t with left := t.left - 1 }) }

/-- The string time counts a millisecond, wrapping at 2^24, and every running timer has one less (R173). -/
def State.tick (s : State) : State :=
  { s with time := s.time + 1, links := s.links.map LinkPort.tick, drives := s.drives.map Drive.tick }

end Sys2Proof.Machine
end

