-- ==== Sys2Proof/Safety.lean ====
section
/-! DEFINITION. The terms in which claims about the block are made: states between commands, orders met on a link, and
the laws the manual states of every state. -/
namespace Sys2Proof.Machine

/-! ### States between commands -/

/-- No selection event (R68) and no prompted patrol check (R145) is outstanding. -/
def State.calm (s : State) : Bool := DriveNo.all.all (fun d => !(s.drive d).selEvent && !(s.drive d).patrolEvent)

/-- The drain test would end DRAINING (R162). -/
def State.drainDue (s : State) : Bool := decide (s.mode = .draining) && !s.resetting && s.drained

/-- Report delivery has nothing to open: a host with a queued frame and no report exchange has no IDLE link (R157). -/
def State.reportsOffered (s : State) : Bool :=
  HostNo.all.all (fun h => match s.host h with
    | some x => x.queue.isEmpty || x.reportLink.isSome || (s.idleLink h).isNone
    | none => true)

/-- Nothing is left over from earlier commands: what `settle` does has been done. -/
def State.quiet (s : State) : Bool := s.calm && !s.drainDue && s.reportsOffered

/-! ### Orders met on a link -/

/-- A link on which the answer of an order is offered at once: IDLE (02_links, section 2.1) with no LINK-BUSY answer
(R24) offered, due or bounded by a wait. -/
def LinkPort.free (p : LinkPort) : Bool :=
  p.isIdle && p.offered.isNone && p.busyTags.isEmpty &&
    (match p.stall with | some t => t.wait != .linkBusy | none => true)

/-- The ORDER opens an exchange on its link and passes every check of R29 that applies to it. -/
def State.accepts (s : State) (l : Link) (c : OrderCode) (f : OrderFrame) : Bool :=
  (s.link l).free && (s.acceptance l c f).isNone

/-- The state in which a link carries an order exchange whose ANSWER `a` awaits frame acceptance under wait e) (R25,
R36 e), with the frames `rest` to follow; the rest of the state is as given. -/
def State.answered (s : State) (l : Link) (tag : Byte) (h : Option HostNo) (holds : Bool) (a : Answer)
    (rest : List Frame := []) : State :=
  s.updLink l (fun p =>
    { p with
      exchange := some (.order ⟨tag, h, holds, .answering⟩)
      offered := some (.frame (.answer a))
      toSend := rest
      stall := some ⟨.answer, s.stallLimit⟩ })

/-- The ANSWER COMPLETE with a result image (section 11.1). -/
def completeAnswer (tag : Byte) (image : List Byte := []) : Answer := { tag := tag, result := .complete, image := image }

/-- The ANSWER CLAIMED-WAITING with the holder and the place (R52, section 11.1). -/
def waitingAnswer (tag : Byte) (image : List Byte) : Answer := { tag := tag, result := .claimedWaiting, image := image }

/-- The ANSWER of a refusal with detail bytes 4 to 7 (section 11.1). -/
def refusalAnswer (tag : Byte) (code : RefusalCode) (detail : List Byte := [0, 0, 0, 0]) : Answer :=
  { tag := tag, result := .refused code, detail := detail }

/-- The command is an ORDER with a defined code (section 2.4): its link, its code and its frame. -/
def instrOrder : Instr → Option (Link × OrderCode × OrderFrame)
  | .read l f => some (l, .read, f)
  | .write l f => some (l, .write, f)
  | .verify l f => some (l, .verify, f)
  | .update l f => some (l, .update, f)
  | .reassignNew l f => some (l, .reassign, f)
  | .reassignFill l f => some (l, .reassign, f)
  | .claim l f => some (l, .claim, f)
  | .claimWithNotice l f => some (l, .claimWithNotice, f)
  | .yield l f => some (l, .yield, f)
  | .readCheckRecord l f => some (l, .readCheckRecord, f)
  | .beginLoad l f => some (l, .beginLoad, f)
  | .loadSegment l f => some (l, .loadSegment, f)
  | .endLoad l f => some (l, .endLoad, f)
  | .abandonLoad l f => some (l, .abandonLoad, f)
  | .readMap l f => some (l, .readMap, f)
  | .readSnapshot l f => some (l, .readSnapshot, f)
  | .readHistory l f => some (l, .readHistory, f)
  | .readHistoryClear l f => some (l, .readHistory, f)
  | .readSettings l f => some (l, .readSettings, f)
  | .editHostSet l f => some (l, .editHost, f)
  | .editHostRemove l f => some (l, .editHost, f)
  | .editFence l f => some (l, .editFence, f)
  | .editProfile l f => some (l, .editProfile, f)
  | .editSettings l f => some (l, .editSettings, f)
  | .editMapAdd l f => some (l, .editMap, f)
  | .editMapRemove l f => some (l, .editMap, f)
  | .editMapRetire l f => some (l, .editMap, f)
  | .editMapRebind l f => some (l, .editMap, f)
  | .quiesce l f => some (l, .quiesce, f)
  | .resume l f => some (l, .resume, f)
  | .stringReset l f => some (l, .stringReset, f)
  | .breakClaim l f => some (l, .breakClaim, f)
  | .driveOffline l f => some (l, .driveOffline, f)
  | .driveOnline l f _ => some (l, .driveOnline, f)
  | .powerOn _ _ | .linkUp _ | .linkDown _ | .reset _ | .orderOnBusyLink _ _ | .unknownOrder _ _ _
  | .frameDiscarded _ _ | .imageDataTaken _ _ _ _ | .writeDataTaken _ _ _ _ | .answerAccepted _
  | .readoutDataAccepted _ | .transferStartAccepted _ | .readDataAccepted _ | .reportAccepted _
  | .linkBusyAccepted _ | .stallTimeout _ | .orphanTimeout _ | .patrolTimerExpiry _ | .seekTimeout _
  | .orientationTimeout _ | .driveAnswersPoll _ | .driveLost _ | .capability _ _ _ | .index _ | .slotAdvance _
  | .seekComplete _ | .seekCheck _ | .recalComplete _ | .recalFailed _ | .fault _ | .orientationPoint _
  | .sectorStart _ | .sectorReadEnd _ _ _ _ | .sectorWriteEnd _ => none

/-- The data orders: the command, its request kind, its form and its order code (R28, section 2.4). -/
def dataOrder : Instr → Option (Link × ReqKind × Form × OrderCode × OrderFrame)
  | .read l f => some (l, .read, .new, .read, f)
  | .write l f => some (l, .write, .new, .write, f)
  | .verify l f => some (l, .verify, .new, .verify, f)
  | .update l f => some (l, .update, .new, .update, f)
  | .reassignNew l f => some (l, .reassign, .new, .reassign, f)
  | .reassignFill l f => some (l, .reassign, .fill, .reassign, f)
  | _ => none

/-! ### The end of an engine's work -/

/-- What `t` holds of the engine `e`, serving `v`, when an event has ended its work at a sector boundary, the sector under
the head finished in `u` (R16, R18, R20 c, R38, R104, R134): the engine is free, its exchange over and the arm given up; under
DRIVE OFFLINE and STRING RESET its copy is aborted. A host request ends with the status of the event, its sectors done and its
first sector not done, or no failing address where every sector is (log entry 17), a REASSIGN with the validity set its copy
leaves; one marked for removal gives up its reservation without a completion (R41 d, R154), and under STRING RESET no completion is placed. -/
def State.WorkEnded (u t : State) (e : EngineNo) (v : Service) (ending : Ending) : Prop :=
  t.engine e = Engine.idle ∧ (∀ l, v.link = some l → (t.link l).exchange = none) ∧
  ((u.drive v.drive).state = .transferring → (u.drive v.drive).recalDue = false →
    (t.drive v.drive).state = .ready ∧ (t.drive v.drive).selEvent = true ∧ (t.drive v.drive).armTarget = none) ∧
  (∀ c, u.copy = some c → v.kind.reassigns = true → c.request = v.request → ending = .offline ∨ ending = .stringReset →
    t.copy = none ∧ ∀ x set, (u.drive c.drive).map.entry? c.logical = some x → x.state.valid = set →
      (t.drive c.drive).map.entries = (u.drive c.drive).map.entries.map (fun y => if y.primary = c.logical then
        { y with state := if set = BitVec.allOnes 32 then .active else .void set } else y)) ∧
  (∀ r i x, (u.drive v.drive).request? v.request = some r → r.kind = v.kind → v.kind ≠ .patrol → v.kind ≠ .autoReassign →
    r.issuer = some i → u.host i.host = some x → ∃ y, t.host i.host = some y ∧
      let valid := u.validOf v.drive v.logical
      (ending = .stringReset ∨ r.marked = true → ∀ q ∈ y.queue, q.isCompletion = true → q ∈ x.queue) ∧
      (ending ≠ .stringReset → r.marked = true → y.reserved = x.reserved - 1) ∧
      (∀ st, r.marked = false → v.kind ≠ .reassign → ending = .event st ∨ (ending = .offline ∧ st = .driveOffline) →
        ⟨u.time, .completion ⟨i.tag, v.drive, st, none, none, r.done, if r.done < r.count then some r.next else none⟩⟩ ∈
          y.queue) ∧
      (r.marked = false → v.kind = .reassign → ending = .offline →
        ⟨u.time, .completion ⟨i.tag, v.drive, .driveOffline, none, none, SectorSet.size valid,
          (SectorSet.lowest (~~~valid)).map (fun k => r.start.track.addr k)⟩⟩ ∈ y.queue))

/-! ### The laws of the manual -/

/-- The claim law of R50, with the note of R51 that a free drive has an empty waiting list. -/
def Claim.Lawful (c : Claim) : Prop :=
  c.waiting.length ≤ 3 ∧ c.waiting.Nodup ∧ (∀ h, c.holder = some h → h ∉ c.waiting) ∧ (c.holder = none → c.waiting = [])

/-- The claim law holds on every drive. -/
def State.ClaimLaw (s : State) : Prop := ∀ d, (s.drive d).claim.Lawful

/-- The alternates a map names, present and retained, entry by entry. -/
def SpareMap.named (m : SpareMap) : List Nat := (m.entries.map Entry.names).flatten

/-- The map law of R111: no two entries share a primary or an alternate, and an alternate of the pool is ASSIGNED
exactly when an entry names it. -/
def SpareMap.Lawful (m : SpareMap) : Prop :=
  (m.entries.map (·.primary)).Nodup ∧ m.named.Nodup ∧ ∀ a < 96, (m.altState a = .assigned ↔ a ∈ m.named)

/-- The map law holds on every drive. -/
def State.AlternateLaw (s : State) : Prop := ∀ d, (s.drive d).map.Lawful

/-- The entries stand in the sort order of their primary tracks (R106): by `Track.number`, which for heads 0 to 11 orders
by cylinder and then by head (R28). -/
def SpareMap.Sorted (m : SpareMap) : Prop := (m.entries.map (fun e => e.primary.number)).Pairwise (· ≤ ·)

/-- The maps of every drive and of the staging area are sorted (R106, R176). -/
def State.MapOrderLaw (s : State) : Prop :=
  (∀ d, (s.drive d).map.Sorted) ∧ ∀ g, s.staging = some g → ∀ x ∈ g.segments, ∀ m, x.image = .map m → m.Sorted

/-- What a drive state holds (R3, R14, 01_drives section 1.3): slots are 0 to 127; position and slot are unknown
outside READY, MOVING, ORIENTING and TRANSFERRING; the orientation timer runs in those four states alone; a fault cause
is present in FAULTED alone, an incompatibility reason in INCOMPATIBLE alone. -/
def Drive.Lawful (dr : Drive) : Prop :=
  (∀ n, dr.slot = some n → n < 128) ∧ (dr.state.turning = false → dr.slot = none ∧ dr.pos = none) ∧
    dr.orientTimer.isSome = dr.state.turning ∧ (dr.cause.isSome = true ↔ dr.state = .faulted) ∧
    (dr.reason.isSome = true ↔ dr.state = .incompatible)

/-- The drive law holds on every drive. -/
def State.DriveLaw (s : State) : Prop := ∀ d, (s.drive d).Lawful

/-- A drive queue holds at most 16 requests (R64). -/
def State.QueueLaw (s : State) : Prop := ∀ d, (s.drive d).queue.length ≤ 16

/-- The error history holds at most 64 entries, one for a drive and physical track (R137). -/
def State.HistoryLaw (s : State) : Prop :=
  s.history.length ≤ 64 ∧ (s.history.map (fun e => (e.drive, e.track))).Nodup

/-- A DOWN link has no exchange, no open chain, no frame offered or to be offered, and its stall timer is stopped with no
wait due (02_links section 2.1, R21, R39). What the law needs of links that are up: a wait is due only while wait g) runs (R36
g), wait e) runs or is due only in an order exchange (R36 e), and the link of an engine's transfer carries its transfer exchange
(R26). -/
def State.DownLinkLaw (s : State) : Prop :=
  (∀ l, (s.link l).up = false →
    (s.link l).exchange = none ∧ (s.link l).chain = none ∧ (s.link l).offered = none ∧ (s.link l).busyTags = [] ∧
    (s.link l).toSend = [] ∧ (s.link l).stall = none ∧ (s.link l).due = none) ∧
  (∀ l, (s.link l).due.isSome = true → ∃ left, (s.link l).stall = some ⟨.linkBusy, left⟩) ∧
  (∀ l, (∃ left, (s.link l).stall = some ⟨.answer, left⟩) ∨ (s.link l).due = some .answer →
    ∃ x, (s.link l).exchange = some (.order x)) ∧
  ∀ e v l, (s.engine e).service = some v → v.link = some l → ∃ tag writes, (s.link l).exchange = some (.transfer e tag writes)

/-- The capacity law of a report queue (R153, R155): reservations and completions take at most 16 slots, reservations
and frames at most 24, and notices stand lost only while every slot is occupied. -/
def HostState.Lawful (x : HostState) : Prop :=
  x.reserved + x.completions ≤ 16 ∧ x.occupied ≤ 24 ∧ x.lost ≤ 255 ∧ (0 < x.lost → x.occupied = 24)

/-- How many requests of a host stand in the drive queues. -/
def State.hostRequests (s : State) (h : HostNo) : Nat :=
  (DriveNo.all.map (fun d => ((s.drive d).queue.filter (fun r => r.host == some h)).length)).sum

/-- What ties requests to the rest of the state: each is in one queue, once, and numbered below the next; PATROL and
AUTO-REASSIGN have no issuer and every other kind a host of the table (R65); an engine and the copy name a request of
their own kind, on their own drive, or one that is gone (R85, R122); LOADING and QUIESCED have no request and a FREE track
buffer (R160, R162). -/
def State.RequestLaw (s : State) : Prop :=
  (DriveNo.all.map (fun d => (s.drive d).queue.map (·.id))).flatten.Nodup ∧
  (∀ d, ∀ r ∈ (s.drive d).queue, r.id < s.nextRequest ∧
    (r.issuer = none ↔ r.kind = .patrol ∨ r.kind = .autoReassign) ∧ ∀ i, r.issuer = some i → (s.host i.host).isSome = true) ∧
  (∀ e v, (s.engine e).service = some v →
    v.request < s.nextRequest ∧ ∀ r ∈ (s.drive v.drive).queue, r.id = v.request → r.kind = v.kind) ∧
  (∀ c, s.copy = some c →
    c.request < s.nextRequest ∧ ∀ d, ∀ r ∈ (s.drive d).queue, r.id = c.request → d = c.drive ∧ r.kind.reassigns = true) ∧
  (s.mode = .loading ∨ s.mode = .quiesced → s.drained = true)

/-- The capacity law on every host, its reservations being one for each of its requests (R153, R154), with what ties
requests to the rest of the state. -/
def State.ReportLaw (s : State) : Prop :=
  (∀ h x, s.host h = some x → x.Lawful ∧ x.reserved = s.hostRequests h) ∧ s.RequestLaw

/-- An entry that is not COPYING is ACTIVE exactly when no sector of its alternate is missing, and so VOID only with one
missing (R108). -/
def State.EntryLaw (s : State) : Prop :=
  ∀ d, ∀ e ∈ (s.drive d).map.entries, (∀ v, e.state ≠ .copying v) →
    (e.state = .active ↔ e.state.valid = BitVec.allOnes 32)

/-- An entry is COPYING exactly while the track buffer is HELD by the reassignment of its track, which has an entry (R122).
The buffer is held for one track of one drive, so the COPYING entry of the string is one, no two entries of a drive having one
primary (R111). -/
def State.CopyLaw (s : State) : Prop :=
  (∀ d, ∀ e ∈ (s.drive d).map.entries,
    (∃ v, e.state = .copying v) ↔ ∃ c, s.copy = some c ∧ c.drive = d ∧ c.logical = e.primary) ∧
  ∀ c, s.copy = some c → ∃ e ∈ (s.drive c.drive).map.entries, e.primary = c.logical

/-- At most one request of a drive holds its arm, in POSITIONING where the drive is MOVING (R64, R66). An engine serves one
request, which while it is in a queue is the one of the engine's drive in TRANSFERRING; a request in TRANSFERRING holds an
engine, and no two engines serve one request (R86). The request of an engine that STRING RESET ends has left its queue (R172). -/
def State.ArmLaw (s : State) : Prop :=
  (∀ d, ((s.drive d).queue.filter (fun r => r.state.holdsArm)).length ≤ 1) ∧
  (∀ d, (s.drive d).state = .moving → ∀ r ∈ (s.drive d).queue, r.state.holdsArm = true → r.state = .positioning) ∧
  (∀ e v, (s.engine e).service = some v → ∀ d, ∀ r ∈ (s.drive d).queue, r.id = v.request →
    d = v.drive ∧ r.state = .transferring ∧ (s.engine e).ending ≠ some .stringReset) ∧
  (∀ d, ∀ r ∈ (s.drive d).queue, r.state = .transferring → ∃ e v, (s.engine e).service = some v ∧ v.request = r.id) ∧
  ∀ e k v w, (s.engine e).service = some v → (s.engine k).service = some w → v.request = w.request → e = k

/-- A chain has at most 8 members, each at a position of its own (R33). The members of an open chain are BOUND and on the drive
it names, no position is beyond the last, and no other chain has its identity, which is older than the next (R33). -/
def State.ChainLaw (s : State) : Prop :=
  (∀ d, ((s.drive d).queue.filterMap (·.chain)).Nodup) ∧
  (∀ d, ∀ r ∈ (s.drive d).queue, ∀ x, r.chain = some x → x.id < s.nextChain ∧ 1 ≤ x.pos ∧ x.pos ≤ 8) ∧
  ∀ l c, (s.link l).chain = some c → c.id < s.nextChain ∧ c.members ≤ 8 ∧
    (∀ d, ∀ r ∈ (s.drive d).queue, ∀ x, r.chain = some x → x.id = c.id →
      d = c.drive ∧ x.pos ≤ c.members ∧ r.state = .bound) ∧
    ∀ k x, (s.link k).chain = some x → x.id = c.id → k = l

/-! ### The end of a chain -/

/-- The later members of a chain that stand in the queue of its drive, in chain order (R33). -/
def Drive.laterMembers (dr : Drive) (k : ChainPos) : List Request :=
  ((List.range 9).filter (fun p => decide (k.pos < p))).filterMap (fun p => dr.queue.find? (fun m => m.chain == some ⟨k.id, p⟩))

/-- The completion of a chain member that ends CHAIN-CANCELLED: no sector done and no failing address (R35 b). -/
def Issuer.chainCancelled (i : Issuer) (d : DriveNo) : Completion := ⟨i.tag, d, .chainCancelled, none, none, 0, none⟩

/-- What `t` holds when the request `r`, the member `k` of a closed chain on drive `d`, has ended in `s` with the completion `c`,
its status neither COMPLETE nor COMPLETE-RECOVERED (R35 b): every later member has left its queue, and the hosts have the
completion of `r` and then one of CHAIN-CANCELLED for each later member, in chain order, each in the queue of its own host and
before anything else that the step queues there. Requests stand in their queues as RequestLaw has them; a later member has a
host, and is not marked for removal, being BOUND. -/
def State.ChainCancelled (s t : State) (d : DriveNo) (r : Request) (k : ChainPos) (c : Completion) : Prop :=
  let later := (s.drive d).laterMembers k
  s.RequestLaw → r ∈ (s.drive d).queue → r.chain = some k → r.marked = false →
  (∀ m ∈ later, m.issuer.isSome = true ∧ m.marked = false) →
  (∀ h x, s.host h = some x → ∃ y, t.host h = some y ∧
    let own := fun (i : Issuer) (c : Completion) => if i.host = h then some (⟨s.time, .completion c⟩ : Report) else none
    x.queue ++ ((r.issuer.bind (fun i => own i c)).toList ++
      later.filterMap (fun m => m.issuer.bind (fun i => own i (i.chainCancelled d)))) <+: y.queue) ∧
  ∀ m ∈ later, ∀ x ∈ (t.drive d).queue, x.id ≠ m.id

/-! ### Tables -/

/-- Every setting is in its range (R174). -/
def Settings.InRange (st : Settings) : Prop :=
  st.lead ≤ 7 ∧ st.aging ≤ 255 ∧ (1 ≤ st.forced ∧ st.forced ≤ 15) ∧ st.rotation ≤ 15 ∧
  (1 ≤ st.missLimit ∧ st.missLimit ≤ 7) ∧ (1 ≤ st.stallLimit ∧ st.stallLimit ≤ 255) ∧ st.orphanLimit ≤ 255 ∧
  (1 ≤ st.spareThreshold ∧ st.spareThreshold ≤ 255) ∧ st.patrolInterval ≤ 255 ∧ ∀ d, (st.perDrive.get d).retries ≤ 15

/-- The settings are in range and an installed profile meets the constraints of its type (R72, R74, R166, R169, R174); in the
staging area settings are in range and head-switch times are 0 to 15 (R165). -/
def State.TableLaw (s : State) : Prop :=
  s.settings.InRange ∧ (∀ p, s.profile40 = some p → p.ordered .d40 = true ∧ p.headSwitch ≤ 15) ∧
  (∀ p, s.profile80 = some p → p.ordered .d80 = true ∧ p.headSwitch ≤ 15) ∧
  ∀ g, s.staging = some g → ∀ x ∈ g.segments,
    (∀ st, x.image = .settings st → st.InRange) ∧ ∀ p, x.image = .profile p → p.headSwitch ≤ 15

/-- A state in which every one of these laws holds. -/
def State.Safe (s : State) : Prop :=
  s.ClaimLaw ∧ s.AlternateLaw ∧ s.MapOrderLaw ∧ s.EntryLaw ∧ s.CopyLaw ∧ s.DriveLaw ∧ s.QueueLaw ∧ s.HistoryLaw ∧
    s.DownLinkLaw ∧ s.ReportLaw ∧ s.ArmLaw ∧ s.ChainLaw ∧ s.TableLaw

end Sys2Proof.Machine
end

