-- ==== Sys2Proof/Certificates/Slice0/Obligations.lean ====
section
/-! DEFINITION. The statements for the provers. Those about an order or an event give the state the command leads to,
`t`, whole: `t.settle` where selections, patrol checks, the drain test and report delivery may follow, and `t` itself from
a quiet state. -/
section
open Sys2Proof Sys2Proof.Machine

/-- Every step with a command waiting carries out the command at the front on the rest of the queue (the block's cut;
no rule of the manual). With no command waiting a step lets one millisecond pass: the string time counts (R173), every
running timer has one millisecond less, and nothing else changes. That an empty queue stands for a millisecond is the
model's choice (log entry 2). -/
def Obligations.StepRunsTheFrontCommand : Prop :=
  (∀ (c : Instr) (rest : List Instr) (s : State), s.pending = c :: rest →
      step s = exec c { s with pending := rest }) ∧
  (∀ s : State, s.pending = [] → ∃ t, step s = .next t ∧
      t = { s with time := t.time, links := t.links, drives := t.drives } ∧ t.time = s.time + 1 ∧
      (∀ l, t.link l = { s.link l with stall := (s.link l).stall.map (fun w => ⟨w.wait, w.left - 1⟩) }) ∧
      (∀ d, t.drive d = { s.drive d with
        seekTimer := (s.drive d).seekTimer.map (· - 1)
        orientTimer := (s.drive d).orientTimer.map (· - 1)
        claim := { (s.drive d).claim with orphan := (s.drive d).claim.orphan.map (· - 1) }
        patrolTimer := match (s.drive d).patrolTimer with
          | .running n => .running (n - 1)
          | .stopped => .stopped
          | .expired => .expired }))

/-- Every command answers a next state from every state, and changes nothing of the queue of waiting commands. The
manual discards a frame or a report that its state does not expect (section 2.2, R11, R13); that every command which
cannot occur in its state answers a next state too is the model's choice (log entry 13). -/
def Obligations.EveryCommandAnswers : Prop :=
  ∀ (c : Instr) (s : State), ∃ t, exec c s = .next t ∧ t.pending = s.pending

/-- The state after reset is that of power-on in R173, with no link signal and no drive answering the poll (the
model's choice, log entry 1). POWER_ON, from any state, gives the same with each link port by its signal (R21) and
each position that answers the poll in STARTING with SPIN-UP ordered (R5); the waiting commands stay. -/
def Obligations.PowerOnGivesTheResetState : Prop := State.reset.mode = .loading ∧ State.reset.staging = none ∧ State.reset.time = 0 ∧
  (∀ h, State.reset.host h = none) ∧ (∀ h d, (State.reset.fences.get h).get d = []) ∧
  State.reset.profile40 = none ∧ State.reset.profile80 = none ∧
  State.reset.settings =
    { lead := 2, aging := 16, forced := 8, rotation := 4, missLimit := 3, rounding := .round, stallLimit := 40,
      orphanLimit := 30, spareThreshold := 8, patrolInterval := 0,
      perDrive := PerDrive.const { ecc := .correct, retries := 7, autoSpare := false, patrol := false } } ∧
  (∀ l, State.reset.link l = ⟨false, none, none, none, none, none, [], []⟩) ∧
  (∀ d, let dr := State.reset.drive d
    dr.state = .absent ∧ dr.pos = none ∧ dr.slot = none ∧ dr.cap = none ∧
    dr.map = { bound := none, entries := [], pool := List.replicate 96 .free } ∧ dr.queue = [] ∧
    dr.lastHost = none ∧ dr.runLength = 0 ∧ dr.claim = { holder := none, waiting := [], orphan := none } ∧
    dr.cursor = { cyl := 0, head := 0 } ∧ dr.patrolTimer = .stopped ∧ dr.deferred = []) ∧
  (∀ e, (State.reset.engine e).service = none ∧ (State.reset.engine e).phase = .idle) ∧
  State.reset.copy = none ∧ State.reset.history = [] ∧ State.reset.overflow = 0 ∧ State.reset.pending = [] ∧
  (∀ (signals : PerLink Bool) (answering : PerDrive Bool) (s : State), ∃ t,
    exec (.powerOn signals answering) s = .next t ∧
    t = { State.reset with links := t.links, drives := t.drives, pending := s.pending } ∧
    (∀ l, t.link l = ⟨signals.get l, none, none, none, none, none, [], []⟩) ∧
    (∀ d, t.drive d = if answering.get d = true then { State.reset.drive d with state := .starting, sent := [.spinUp] }
      else State.reset.drive d))

/-- The claim law of R50 is kept by every step: at most 3 hosts wait, none twice, never the holder, and none at a free
drive. -/
def Obligations.ClaimLawIsKept : Prop :=
  ∀ s t : State, s.ClaimLaw → step s = .next t → t.ClaimLaw

/-- The map law of R111 is kept by every step: no two entries of a drive share a primary track or an alternate, and an
alternate is ASSIGNED exactly when an entry names or retains it. So is the sort order of R106: the entries of every map, on a
drive or staged for one, stand in the order of their primary tracks. So is the law of the entry states: an entry that is not
COPYING is ACTIVE exactly when no sector of its alternate is missing, and so VOID only with one missing (R108); and, with
what ties the copy to its request, an entry is COPYING exactly while the track buffer is held by the reassignment of its
track, so that at most one entry of the string is COPYING (R122). -/
def Obligations.AlternateLawIsKept : Prop :=
  (∀ s t : State, s.AlternateLaw → step s = .next t → t.AlternateLaw) ∧
  (∀ s t : State, s.MapOrderLaw → step s = .next t → t.MapOrderLaw) ∧
  (∀ s t : State, s.EntryLaw → step s = .next t → t.EntryLaw) ∧
  (∀ s t : State, s.ReportLaw → s.CopyLaw → step s = .next t → t.CopyLaw) ∧
  ∀ (s : State) (d d' : DriveNo) (e e' : Entry) (v v' : SectorSet), s.AlternateLaw → s.CopyLaw →
    e ∈ (s.drive d).map.entries → e' ∈ (s.drive d').map.entries → e.state = .copying v → e'.state = .copying v' →
    d = d' ∧ e = e'

/-- What each drive state holds is kept by every step: slot and position known only in READY, MOVING, ORIENTING and
TRANSFERRING, where alone the orientation timer runs; a fault cause only in FAULTED, a reason only in INCOMPATIBLE. -/
def Obligations.DriveLawIsKept : Prop :=
  ∀ s t : State, s.DriveLaw → step s = .next t → t.DriveLaw

/-- No step takes a drive queue above 16 requests (R64). With the law of the report queues, every step keeps at most one
request of a drive holding the arm, in POSITIONING while the drive is MOVING (R64, R66); an engine serves one request, which
while it is queued is one of the engine's drive in TRANSFERRING, each request in TRANSFERRING holds an engine, and no two
engines serve one request (R86); and a chain has at most 8 members, each at a position of its own, those of an open chain
BOUND and on the drive it names (R33). Every step leaves the error history at 64 entries or fewer, with one entry for a drive
and physical track (R137). Every step keeps the settings in their ranges (R174) and each installed profile in the constraints
of its type, its head-switch time at most 15 (R72, R74), and with them what the staging area holds of both (R165). -/
def Obligations.QueueAndHistoryLimitsAreKept : Prop :=
  (∀ s t : State, s.QueueLaw → step s = .next t → t.QueueLaw) ∧
  (∀ s t : State, s.ReportLaw → s.ArmLaw → s.ChainLaw → step s = .next t → t.ArmLaw ∧ t.ChainLaw) ∧
  (∀ s t : State, s.HistoryLaw → step s = .next t → t.HistoryLaw) ∧
  ∀ s t : State, s.TableLaw → step s = .next t → t.TableLaw

/-- No step gives a DOWN link an exchange, an open chain, a frame offered or to be offered, or a stall timer that runs or is
to start (02_links, section 2.1, R39). The invariant takes in what this needs of links that are up: a wait is put off only
while wait g) runs (R36 g), wait e) runs or is put off only in an order exchange (R36 e), and the link of an engine's
transfer carries its transfer exchange (R26). -/
def Obligations.DownLinkLawIsKept : Prop :=
  ∀ s t : State, s.DownLinkLaw → step s = .next t → t.DownLinkLaw

/-- Every step keeps the capacity law of the report queues: for each host reserved slots and queued completions never
exceed 16, reserved slots and queued frames never exceed 24, notices stand lost only while the queue is full, and one
slot is reserved for each request of the host (R153 to R156). The invariant takes in what ties requests to hosts,
engines and the copy. -/
def Obligations.ReportLawIsKept : Prop :=
  ∀ s t : State, s.ReportLaw → step s = .next t → t.ReportLaw

/-- The state after reset meets every one of these laws and is quiet. -/
def Obligations.LawsHoldAtReset : Prop := State.reset.Safe ∧ State.reset.quiet = true

/-- DECODE AND ENCODE AGREE: the 40 bytes written for the frame of a well-formed order, whatever its code, decode to that
order with every field of its frame (section 11.1, R175). A table image written by section 11.2, as O22 has its bytes, reads
back as its table with no fault, whatever fills its last frame (R176, R177): settings in range, a profile of eight points
with a head-switch time to 15, a host entry, a fence of up to four extents, and a spare map whose fields are in range and
whose entries are in order, each entry then of origin LOADED (R109 a). So does a host entry or a fence in the image of an
ORDER frame. Log entry 9 names the model's choices here: that a primary cylinder of 640 to 647 in a spare map image is read
without fault, where R107 has cylinders to 639, and that the auto-spare and patrol bytes of a settings image have the codes 0
and 1. -/
def Obligations.OrderFramesDecodeAsEncoded : Prop :=
  (∀ (i : Instr) (l : Link) (code : Byte) (f : OrderFrame), i.wf = true → i.order? = some (l, code, f) → f.size = 40 →
    (encodeFrame code f).length = 40 ∧ decodeOrder l i.faultLine (encodeFrame code f) = some i) ∧
  ∀ fill : List Byte,
    (∀ st : Settings, st.InRange →
      let image := settingsBytes st false ++ fill
      segImageOf .settings image = (none, .settings st) ∧ firstFault (settingsImageFaults image) = none ∧
        settingsOf image = st) ∧
    (∀ (ty : DriveType) (p : Profile), p.points.length = 8 → p.headSwitch ≤ 15 →
      (∀ q ∈ p.points, q.1 < 65536 ∧ q.2 < 65536) →
      let image := profileBytes ty (some p) ++ fill
      segImageOf (.profile ty) image = (none, .profile p) ∧ firstFault (profileImageFaults ty image) = none ∧
        profileOf image = p) ∧
    (∀ (h : HostNo) (e : HostEntry), segImageOf (.host h) (e.bytes h ++ fill) = (none, .host e) ∧
      ∀ f : OrderFrame, f.image = e.bytes h ++ fill →
        HostNo.ofNat? (imageByte f 16) = some h ∧ hostEntryOf (fun i => imageByte f (16 + i)) = e) ∧
    (∀ (h : HostNo) (d : DriveNo) (xs : List Extent), xs.length ≤ 4 → (∀ x ∈ xs, x.low < 65536 ∧ x.high < 65536) →
      segImageOf (.fence h d) (fenceBytes h d xs ++ fill) = (none, .fence xs) ∧
      ∀ f : OrderFrame, f.image = fenceBytes h d xs ++ fill →
        HostNo.ofNat? (imageByte f 16) = some h ∧ imageByte f 17 = d.toNat ∧
        extentsOf (imageWord f) (imageByte f) 19 (imageByte f 18) = xs) ∧
    (∀ (d : DriveNo) (m : SpareMap), m.entries.length ≤ 96 → m.pool.length = 96 →
      (m.entries.map (·.retained)).flatten.length ≤ 96 →
      (∀ e ∈ m.entries, e.primary.cyl ≤ 647 ∧ e.primary.head ≤ 11 ∧ e.alt ≤ 95 ∧ e.generation ≤ 15 ∧
        ∀ a ∈ e.retained, a ≤ 95) →
      m.Sorted → segImageOf (.map d) (m.bytes ++ fill) =
        (none, .map { m with entries := m.entries.map (fun e => { e with origin := .loaded }) }))

/-- Settling leaves no report and no drain test due: no undelivered frame has an IDLE link (R157) and no drained DRAINING
stands (R162); selection events and patrol prompts are not spoken of here. A link with no exchange on which a LINK-BUSY
answer still awaits frame acceptance counts as IDLE here, the model's choice (log entry 25). In a quiet state it changes
nothing; and it never changes the tables, the string time, the claims, the engines, or a link on which an exchange is in
progress. -/
def Obligations.SettlingOffersReportsAndDrains : Prop :=
  ∀ s : State,
    s.settle.reportsOffered = true ∧ s.settle.drainDue = false ∧ (s.quiet = true → s.settle = s) ∧
    s.settle.time = s.time ∧ s.settle.settings = s.settings ∧ s.settle.fences = s.fences ∧
    s.settle.profile40 = s.profile40 ∧ s.settle.profile80 = s.profile80 ∧ s.settle.staging = s.staging ∧
    s.settle.engines = s.engines ∧ s.settle.overflow = s.overflow ∧ s.settle.pending = s.pending ∧
    (∀ d, (s.settle.drive d).claim = (s.drive d).claim ∧ (s.settle.drive d).cap = (s.drive d).cap ∧
      (s.settle.drive d).slot = (s.drive d).slot) ∧
    (∀ h, (s.settle.host h).map (·.entry) = (s.host h).map (·.entry)) ∧
    (∀ l, (s.settle.link l).up = (s.link l).up ∧ (s.settle.link l).chain = (s.link l).chain ∧
      ((s.link l).exchange.isSome = true → s.settle.link l = s.link l))

/-- An order refused by a check of R29 is answered with the check's code and detail and changes nothing else; a queued one
discards the open chain of its link (R25 a, R31, R34 a). That a chain so discarded as the last work of a draining string
makes the mode QUIESCED in the same step is the model's choice (log entry 11). -/
def Obligations.RefusedOrdersChangeNothing : Prop :=
  ∀ (i : Instr) (l : Link) (c : OrderCode) (f : OrderFrame) (s : State) (code : RefusalCode) (detail : List Byte),
    instrOrder i = some (l, c, f) → (s.link l).free = true → s.acceptance l c f = some (code, detail) →
    let t := (if c.queued = true then s.discardChain l else s).answered l f.tag (s.owner l) false
      (refusalAnswer f.tag code detail)
    exec i s = .next t.settle ∧
      (s.quiet = true → c.queued = false ∨ (s.link l).chain = none → exec i s = .next t ∧
        t = s.answered l f.tag (s.owner l) false (refusalAnswer f.tag code detail))

/-- What acceptance refuses, in the order of R29: each check, when it fails and every earlier one passes, with its code and
detail; an order that passes all is accepted. Check 1 names the first field at fault, then the chain conditions (R28, R33,
R176); 2 a tag in use (R32); 3 the mode by the table of R30; 4 an unassigned link; 5 a link outside the authority host's
group (R46); 6 a drive not usable or ABSENT; and for queued orders 7 the first sector outside the data area (R2), 8 another
holder (R55), 9 the first track that the fence does not grant (R61), 10 a full drive queue, 11 a full report queue (R153).
Log entry 9 names the model's choices here. Unused detail bytes are 0. The clause of 'bad 12' for an UPDATE whose offset and
length are in range and exceed 512 together: R176 d) has it at fault and names no field. That byte 3 of a LOAD SEGMENT of an
undefined form is taken as a drive. The offsets named for unused bytes that are not 0, to which R176 h) gives none: 'bad 10'
and 'bad 12' for an order that uses no offset and no length, and 'bad 5', 'bad 10' and 'bad 12' for an immediate order, name
the field's first byte, and 'bad o' for 16 to 39 the byte itself. The limits of the bytes of an order image to which R176 a)
to h) give none: a host byte outside 1 to 4, a path group or class enables above 15, an authority or notice-inhibit byte
above 1, a primary cylinder above 647, a head above 11, an alternate index above 95. The faults are those of R176 a) to h)
order by order: for an immediate order the drive it names, its flags, its unused bytes, its form, its number of DATA frames,
and the image of EDIT HOST, EDIT FENCE, EDIT MAP or LOAD SEGMENT. -/
def Obligations.AcceptanceRefusesInOrder : Prop :=
  ∀ (i : Instr) (l : Link) (c : OrderCode) (f : OrderFrame) (s : State),
    instrOrder i = some (l, c, f) → (s.link l).free = true →
    let d := orderDrive f
    let dr := s.drive d
    let owner := s.owner l
    let refused := fun (code : RefusalCode) (detail : List Byte) =>
      exec i s = .next ((if c.queued = true then s.discardChain l else s).answered l f.tag owner false
        (refusalAnswer f.tag code detail)).settle
    let one := fun n : Nat => [BitVec.ofNat 8 n, 0, 0, 0]
    -- 1, fields: the least offset at fault; the fields of a queued order, and of an immediate one
    let bad := fun o : Nat => (o, true) ∈ fieldFaults c f
    let fields := f.size = 40 ∧ ∀ o, ¬ bad o
    (f.size ≠ 40 → refused .format (one 1)) ∧
    (∀ o, f.size = 40 → bad o → (∀ p < o, ¬ bad p) → refused .format [1, BitVec.ofNat 8 o, 0, 0]) ∧
    (c.queued = true →
      (bad 3 ↔ 7 < f.drive.toNat) ∧ (bad 4 ↔ f.flags &&& 0xFE#8 ≠ 0) ∧ (bad 8 ↔ c = .reassign ∧ f.sector ≠ 0) ∧
      (bad 9 ↔ if c = .update then f.count ≠ 1 else if c = .reassign then f.count ≠ 0 else f.count = 0 ∨ 32 < f.count.toNat) ∧
      (bad 10 ↔ if c = .update then 511 < f.offset.toNat else f.offset ≠ 0) ∧
      (bad 12 ↔ if c = .update then f.length = 0 ∨ 512 < f.length.toNat ∨ 512 < f.offset.toNat + f.length.toNat else f.length ≠ 0) ∧
      (bad 14 ↔ if c = .reassign then f.form ≠ 1 ∧ f.form ≠ 2 else f.form ≠ 0) ∧ (bad 15 ↔ f.frames ≠ 0) ∧
      (∀ o, 16 ≤ o → o < 40 → (bad o ↔ imageByte f o ≠ 0)) ∧
      ∀ o, bad o → o ∈ [3, 4, 8, 9, 10, 12, 14, 15] ∨ (16 ≤ o ∧ o < 40)) ∧
    -- 1, fields: the fields of an immediate order
    (c.queued = false →
      let b := imageByte f
      let unused := fun from_ : Nat => ∀ o, from_ ≤ o → o < 40 → (bad o ↔ b o ≠ 0)
      let names : Bool := [OrderCode.claim, .claimWithNotice, .yield, .readMap, .editFence, .editMap, .breakClaim,
        .driveOffline, .driveOnline].contains c || (c == .loadSegment && f.form != 1 && f.form != 2 && f.form != 4)
      (bad 3 ↔ if names = true then 7 < f.drive.toNat else f.drive ≠ 0) ∧
      (bad 4 ↔ f.flags &&& (if c = .readHistory then 0xFC#8 else 0xFE#8) ≠ 0) ∧
      (bad 5 ↔ f.cylinder ≠ 0) ∧ (bad 7 ↔ f.head ≠ 0) ∧ (bad 8 ↔ f.sector ≠ 0) ∧ (bad 9 ↔ f.count ≠ 0) ∧
      (bad 10 ↔ f.offset ≠ 0) ∧ (bad 12 ↔ f.length ≠ 0) ∧
      (bad 14 ↔
        if c = .editHost ∨ c = .editProfile then f.form ≠ 1 ∧ f.form ≠ 2
        else if c = .editMap then f.form = 0 ∨ 4 < f.form.toNat
        else if c = .loadSegment then f.form = 0 ∨ 5 < f.form.toNat
        else f.form ≠ 0) ∧
      (bad 15 ↔ f.frames.toNat ≠
        if c = .editProfile ∨ c = .editSettings then 1 else if c = .loadSegment then (if f.form = 5 then 3 else 1) else 0) ∧
      (c = .editHost → (bad 16 ↔ b 16 = 0 ∨ 4 < b 16) ∧ (f.form = 2 → unused 17) ∧
        (f.form ≠ 2 → (bad 17 ↔ 15 < b 17) ∧ (bad 18 ↔ 1 < b 18) ∧ (bad 19 ↔ 15 < b 19) ∧ (bad 20 ↔ 1 < b 20) ∧
          ¬ bad 21 ∧ unused 22)) ∧
      (c = .editFence →
        let n := if b 18 ≤ 4 then b 18 else 0
        (bad 16 ↔ b 16 = 0 ∨ 4 < b 16) ∧ (bad 17 ↔ b 17 ≠ f.drive.toNat) ∧ (bad 18 ↔ 4 < b 18) ∧
        (∀ i < n, (bad (23 + 5 * i) ↔ b (23 + 5 * i) = 0 ∨ 3 < b (23 + 5 * i)) ∧ ∀ j < 4, ¬ bad (19 + 5 * i + j)) ∧
        unused (19 + 5 * n)) ∧
      (c = .editMap →
        (f.form = 1 ∨ f.form = 2 → (bad 16 ↔ 647 < b 16 * 256 + b 17) ∧ ¬ bad 17 ∧ (bad 18 ↔ 11 < b 18)) ∧
        (f.form = 1 → (bad 19 ↔ 95 < b 19) ∧ unused 20) ∧ (f.form = 2 → unused 19) ∧
        (f.form = 3 → (bad 16 ↔ b 16 ≠ 0) ∧ (bad 17 ↔ b 17 ≠ 0) ∧ (bad 18 ↔ b 18 ≠ 0) ∧ (bad 19 ↔ 95 < b 19) ∧ unused 20) ∧
        (f.form = 4 → unused 16)) ∧
      (c = .loadSegment →
        (bad 16 ↔ if f.form = 2 ∨ f.form = 3 then b 16 = 0 ∨ 4 < b 16 else b 16 ≠ 0) ∧
        (bad 17 ↔ if f.form = 4 then b 17 = 0 ∨ 2 < b 17 else b 17 ≠ 0) ∧ unused 18) ∧
      (c ≠ .editHost → c ≠ .editFence → c ≠ .editMap → c ≠ .loadSegment → unused 16) ∧
      ∀ o, bad o → o ∈ [3, 4, 5, 7, 8, 9, 10, 12, 14, 15] ∨ (16 ≤ o ∧ o < 40)) ∧
    -- 1, chains
    (fields → c.queued = false → continues f = true → refused .format (one 3)) ∧
    (∀ k, fields → c.queued = true → (s.link l).chain = some k →
      (d ≠ k.drive → refused .format (one 4)) ∧ (d = k.drive → 8 ≤ k.members → refused .format (one 5))) ∧
    let p1 := fields ∧ (c.queued = false → continues f = false) ∧
      (c.queued = true → ∀ k, (s.link l).chain = some k → d = k.drive ∧ k.members < 8)
    -- 2
    let used := fun h : HostNo =>
      (∃ k, ∃ r ∈ (s.drive k).queue, ∃ j, r.issuer = some j ∧ j.host = h ∧ j.tag = f.tag) ∨
      (∃ x, s.host h = some x ∧ ∃ q ∈ x.queue, ∃ y, q.record = .completion y ∧ y.tag = f.tag) ∨
      ∃ k x, (s.link k).exchange = some (.order x) ∧ x.holdsTag = true ∧ x.host = some h ∧ x.tag = f.tag
    (∀ h, p1 → owner = some h → used h → refused .tagInUse (one 0)) ∧
    let p2 := p1 ∧ ∀ h, owner = some h → ¬ used h
    -- 3
    let load : Bool := [OrderCode.beginLoad, .loadSegment, .endLoad, .abandonLoad].contains c
    let readout : Bool := [OrderCode.readMap, .readSnapshot, .readHistory, .readSettings].contains c
    let tables : Bool := [OrderCode.editHost, .editProfile, .editSettings].contains c
    let mode : Option RefusalCode := match s.mode with
      | .loading => if load || readout then none else some .notLoaded
      | .online => if load || tables then some .notQuiesced else none
      | .draining => if c.queued then some .quiesced else if load || tables then some .notQuiesced else none
      | .quiesced => if c.queued then some .quiesced else none
    (∀ code, p2 → mode = some code →
      refused code (one (match s.mode with | .loading => 1 | .online => 2 | .draining => 3 | .quiesced => 4))) ∧
    let p3 := p2 ∧ mode = none
    -- 4
    let exempt := s.mode = .loading ∧ (load || readout) = true
    (p3 → owner = none → ¬ exempt → refused .unassignedLink (one (Link.code l))) ∧
    let p4 := p3 ∧ (owner = none → exempt)
    -- 5
    let changing : Bool := load || tables || (c == .readHistory && f.flags.getLsbD 1) || [OrderCode.editMap, .editFence,
      .quiesce, .resume, .stringReset, .breakClaim, .driveOffline, .driveOnline].contains c
    (∀ h, p4 → changing = true → ¬ exempt → s.authorityHost = some h → owner ≠ some h →
      refused .authority (one (HostNo.code h))) ∧
    let p5 := p4 ∧ (changing = true → ¬ exempt → owner = s.authorityHost)
    -- 6
    let usable := c.queued = true ∨ c = .claim ∨ c = .claimWithNotice
    let present := c = .driveOffline ∨ c = .driveOnline
    (p5 → (usable ∧ dr.state.condition ≠ .ready) ∨ (present ∧ dr.state = .absent) →
      refused .noDrive (one dr.state.condition.code)) ∧
    let p6 := p5 ∧ (usable → dr.state.condition = .ready) ∧ (present → dr.state ≠ .absent)
    (c.queued = false → p6 → s.accepts l c f = true) ∧
    (c.queued = true →
      -- 7
      let sector := if c = .reassign then 0 else f.sector.toNat
      let count := if c = .reassign then 32 else f.count.toNat
      let limit := match dr.type with | .d40 => 320 | .d80 => 640
      let start := (f.cylinder.toNat * 12 + f.head.toNat) * 32 + sector
      let first := 11 < f.head.toNat ∨ 31 < sector ∨ limit ≤ f.cylinder.toNat
      (p6 → first → refused .address [BitVec.ofNat 8 (f.cylinder.toNat / 256), BitVec.ofNat 8 f.cylinder.toNat,
        BitVec.ofNat 8 f.head.toNat, BitVec.ofNat 8 sector]) ∧
      (p6 → ¬ first → limit * 384 < start + count →
        refused .address [BitVec.ofNat 8 (limit / 256), BitVec.ofNat 8 limit, 0, 0]) ∧
      let p7 := p6 ∧ ¬ first ∧ start + count ≤ limit * 384
      -- 8
      (∀ g, p7 → dr.claim.holder = some g → owner ≠ some g → refused .claimed (one (HostNo.code g))) ∧
      let p8 := p7 ∧ ∀ g, dr.claim.holder = some g → owner = some g
      -- 9
      let needed : Access := if c = .write ∨ c = .update ∨ c = .reassign then .write else .read
      let granted := fun (h : HostNo) (n : Nat) => (s.fences.get h).get d = [] ∨
        ∃ x ∈ (s.fences.get h).get d, x.low ≤ n / 12 ∧ n / 12 ≤ x.high ∧ (x.access = needed ∨ x.access = .readWrite)
      (∀ h n, p8 → owner = some h → start / 32 ≤ n → n ≤ (start + count - 1) / 32 → ¬ granted h n →
        (∀ m, start / 32 ≤ m → m < n → granted h m) →
        refused .fence [BitVec.ofNat 8 (n / 12 / 256), BitVec.ofNat 8 (n / 12), BitVec.ofNat 8 (n % 12), 255]) ∧
      let p9 := p8 ∧ ∀ h n, owner = some h → start / 32 ≤ n → n ≤ (start + count - 1) / 32 → granted h n
      -- 10 and 11
      (p9 → 16 ≤ dr.queue.length → refused .queueFull (one 0)) ∧
      let p10 := p9 ∧ dr.queue.length < 16
      let full := fun x : HostState => 16 ≤ x.reserved + x.completions ∨ 24 ≤ x.reserved + x.queue.length
      (∀ h x, p10 → owner = some h → s.host h = some x → full x →
        refused .reportFull [BitVec.ofNat 8 x.reserved, BitVec.ofNat 8 x.queue.length, 0, 0]) ∧
      (p10 → (∀ h x, owner = some h → s.host h = some x → ¬ full x) → s.accepts l c f = true))

/-- Frames that reach no acceptance. An ORDER taken on a BUSY link is answered LINK-BUSY and nothing else changes: the answer
follows the controller frame that awaits acceptance, or is offered at once with wait g) when no other wait runs (R24, R36 g).
An order with an undefined code is refused UNKNOWN-ORDER with the code received, or FORMAT with detail 0 when its frame has a
wrong length (R29 check 1, R175, R176). That a frame of wrong length whose code is undefined too is refused FORMAT, although
R176 examines the code first, is the model's choice (log entry 9). A discarded frame changes nothing and is not answered. -/
def Obligations.FramesOutsideAcceptance : Prop :=
  (∀ (i : Instr) (l : Link) (tag : Byte) (s : State),
    (i = .orderOnBusyLink l tag ∨ ∃ code f, i.order? = some (l, code, f) ∧ f.tag = tag) →
    (s.link l).up = true → (s.link l).exchange.isSome = true →
    ((s.link l).offered.isSome = true →
      exec i s = .next (s.updLink l (fun p => { p with busyTags := p.busyTags ++ [tag] }))) ∧
    ((s.link l).offered = none → (s.link l).busyTags = [] →
      exec i s = .next (s.updLink l (fun p => { p with
        offered := some (.linkBusy tag)
        stall := match p.stall with | some w => some w | none => some ⟨.linkBusy, s.settings.stallLimit⟩ })))) ∧
  (∀ (l : Link) (code : Byte) (f : OrderFrame) (s : State), (s.link l).free = true →
    let t := s.answered l f.tag (s.owner l) false
      (if f.size = 40 then refusalAnswer f.tag .unknownOrder [code, 0, 0, 0] else refusalAnswer f.tag .format [1, 0, 0, 0])
    exec (.unknownOrder l code f) s = .next t.settle ∧ (s.quiet = true → exec (.unknownOrder l code f) s = .next t)) ∧
  ∀ (l : Link) (bytes : List Byte) (s : State), exec (.frameDiscarded l bytes) s = .next s

/-- CLAIM by host h, from its drive check on (R51): refused NO-DRIVE with the reported condition where the drive is
not usable; h becomes holder of a free drive; a drive h holds is left as it is; refused CLAIMED with the holder's
number otherwise. The orphan timer is not touched. -/
def Obligations.ClaimIsCarriedOut : Prop :=
  ∀ (l : Link) (f : OrderFrame) (h : HostNo) (s : State), (s.link l).free = true → s.owner l = some h →
    s.check1 l .claim f = none → s.check2 l f = none → s.check3 .claim = none →
    let d := orderDrive f
    let c := (s.drive d).claim
    let t :=
      if (s.drive d).usable = false then
        s.answered l f.tag (some h) false (refusalAnswer f.tag .noDrive [BitVec.ofNat 8 (s.drive d).state.condition.code, 0, 0, 0])
      else match c.holder with
        | none =>
          (s.updDrive d (fun dr => { dr with claim := ⟨some h, c.waiting.filter (· != h), c.orphan⟩ })).answered l f.tag
            (some h) true (completeAnswer f.tag [BitVec.ofNat 8 (HostNo.code h), 255])
        | some g =>
          if g = h then s.answered l f.tag (some h) true (completeAnswer f.tag [BitVec.ofNat 8 (HostNo.code h), 255])
          else s.answered l f.tag (some h) true (refusalAnswer f.tag .claimed [BitVec.ofNat 8 (HostNo.code g), 0, 0, 0])
    exec (.claim l f) s = .next t.settle ∧ (s.quiet = true → exec (.claim l f) s = .next t)

/-- CLAIM WITH NOTICE by host h on a drive that another host g holds (R52): a waiting host is told its place; a host
with room on the list joins at the tail and g is sent RELEASE-REQUESTED; with 3 hosts waiting it is refused CLAIMED.
On a free drive, or one h holds, it acts as CLAIM. -/
def Obligations.ClaimWithNoticeIsCarriedOut : Prop :=
  ∀ (l : Link) (f : OrderFrame) (h : HostNo) (s : State), s.accepts l .claimWithNotice f = true → s.owner l = some h →
    let d := orderDrive f
    let c := (s.drive d).claim
    ((c.holder = none ∨ c.holder = some h) →
      let c' : Claim := if c.holder = none then ⟨some h, c.waiting.filter (· != h), c.orphan⟩ else c
      exec (.claimWithNotice l f) s = .next ((s.updDrive d (fun dr => { dr with claim := c' })).answered l f.tag
        (some h) true (completeAnswer f.tag [BitVec.ofNat 8 (HostNo.code h), 255])).settle) ∧
    (∀ g, c.holder = some g → g ≠ h →
      (∀ before after, c.waiting = before ++ h :: after → h ∉ before → exec (.claimWithNotice l f) s = .next
        (s.answered l f.tag (some h) true (waitingAnswer f.tag
          [BitVec.ofNat 8 (HostNo.code g), BitVec.ofNat 8 (before.length + 1)])).settle) ∧
      (h ∉ c.waiting → c.waiting.length < 3 → exec (.claimWithNotice l f) s = .next
        (((s.updDrive d (fun dr => { dr with claim := ⟨some g, c.waiting ++ [h], c.orphan⟩ })).updHost g
            (HostState.enqueue ⟨s.time, .releaseRequested d h⟩)).answered l f.tag (some h) true
          (waitingAnswer f.tag [BitVec.ofNat 8 (HostNo.code g), BitVec.ofNat 8 (c.waiting.length + 1)])).settle) ∧
      (h ∉ c.waiting → 3 ≤ c.waiting.length → exec (.claimWithNotice l f) s = .next
        (s.answered l f.tag (some h) true
          (refusalAnswer f.tag .claimed [BitVec.ofNat 8 (HostNo.code g), 0, 0, 0])).settle))

/-- What handing on a claim does (R54): the first host waiting becomes holder and is sent CLAIM-GRANTED, its orphan
timer starting when it is cut off; an empty list frees the drive; with cause ORPHAN or BREAK the previous holder is
sent CLAIM-DROPPED first. BREAK CLAIM hands on a held claim with cause BREAK and answers the new holder, and is
refused NOT-HELD on a free drive (R58); ORPHAN_TIMEOUT hands the claim on with cause ORPHAN while the orphan timer
runs (R57); that it changes nothing while none runs is the model's choice (log entry 13). -/
def Obligations.ClaimsAreHandedOn : Prop :=
  (∀ (d : DriveNo) (cause : ClaimCause) (p : HostNo) (s : State), (s.drive d).claim.holder = some p →
      let told := fun (new : Option HostNo) (u : State) =>
        if cause = .orphan ∨ cause = .break then u.updHost p (HostState.enqueue ⟨s.time, .claimDropped d new cause⟩) else u
      let timer := fun g =>
        if s.reachable g = true ∨ s.settings.orphanLimit = 0 then none else some (s.settings.orphanLimit * 1000)
      ((s.drive d).claim.waiting = [] → s.handOn d cause =
        told none (s.updDrive d (fun dr => { dr with claim := ⟨none, [], none⟩ }))) ∧
      (∀ g rest, (s.drive d).claim.waiting = g :: rest → s.handOn d cause =
        (told (some g) (s.updDrive d (fun dr => { dr with claim := ⟨some g, rest, timer g⟩ }))).updHost g (HostState.enqueue ⟨s.time, .claimGranted d p cause⟩))) ∧
  ((∀ (l : Link) (f : OrderFrame) (s : State), s.accepts l .breakClaim f = true →
      let d := orderDrive f
      let c := (s.drive d).claim
      (c.holder = none →
        let t := s.answered l f.tag (s.owner l) true (refusalAnswer f.tag .notHeld)
        exec (.breakClaim l f) s = .next t.settle ∧ (s.quiet = true → exec (.breakClaim l f) s = .next t)) ∧
      (∀ p, c.holder = some p → exec (.breakClaim l f) s = .next
        ((s.handOn d .break).answered l f.tag (s.owner l) true
          (completeAnswer f.tag [BitVec.ofNat 8 ((c.waiting.head?.map HostNo.code).getD 255), 255])).settle)) ∧
    (∀ (d : DriveNo) (s : State),
      ((s.drive d).claim.orphan.isSome = true → exec (.orphanTimeout d) s = .next (s.handOn d .orphan).settle) ∧
      ((s.drive d).claim.orphan = none → exec (.orphanTimeout d) s = .next s)))

/-- YIELD by host h (R53): the holder's claim ends or is handed on with cause YIELD; a waiting host leaves the list;
any other host is refused NOT-HELD and nothing changes. The answer names the holder after the order (log entry 9). -/
def Obligations.YieldIsCarriedOut : Prop :=
  ∀ (l : Link) (f : OrderFrame) (h : HostNo) (s : State), s.accepts l .yield f = true → s.owner l = some h →
    let d := orderDrive f
    let c := (s.drive d).claim
    (c.holder = some h → c.waiting = [] →
      let t := (s.updDrive d (fun dr => { dr with claim := ⟨none, [], none⟩ })).answered l f.tag (some h) true
        (completeAnswer f.tag [255, 255])
      exec (.yield l f) s = .next t.settle ∧ (s.quiet = true → exec (.yield l f) s = .next t)) ∧
    (∀ g rest, c.holder = some h → c.waiting = g :: rest → exec (.yield l f) s = .next
      ((s.handOn d .yield).answered l f.tag (some h) true
        (completeAnswer f.tag [BitVec.ofNat 8 (HostNo.code g), 255])).settle) ∧
    (c.holder ≠ some h →
      let t := if h ∈ c.waiting then
          (s.updDrive d (fun dr => { dr with claim := { c with waiting := c.waiting.filter (· != h) } })).answered l f.tag
            (some h) true (completeAnswer f.tag [BitVec.ofNat 8 ((c.holder.map HostNo.code).getD 255), 255])
        else s.answered l f.tag (some h) true (refusalAnswer f.tag .notHeld)
      exec (.yield l f) s = .next t.settle ∧ (s.quiet = true → exec (.yield l f) s = .next t))

/-- BEGIN LOAD opens the staging area, or empties the one its link owns; ABANDON LOAD closes the one its link owns. On another
link's area both are refused LOAD-BUSY with its letter, which for ABANDON LOAD is the model's choice (log entry 9); ABANDON
LOAD on a closed one is refused NO-LOAD (R164, R168). Staging a segment (R164, R165): a key staged before keeps its index and
takes the new image; a new key is appended with the next index; no other segment changes. -/
def Obligations.StagingIsOpenedFilledAndAbandoned : Prop :=
  (∀ (l : Link) (f : OrderFrame) (s : State),
    (s.accepts l .beginLoad f = true →
      let t := match s.staging with
        | none => ({ s with staging := some ⟨l, []⟩ } : State).answered l f.tag (s.owner l) true (completeAnswer f.tag)
        | some g =>
          if g.owner = l then ({ s with staging := some ⟨l, []⟩ } : State).answered l f.tag (s.owner l) true (completeAnswer f.tag)
          else s.answered l f.tag (s.owner l) true (refusalAnswer f.tag .loadBusy [BitVec.ofNat 8 (Link.code g.owner), 0, 0, 0])
      exec (.beginLoad l f) s = .next t.settle ∧ (s.quiet = true → exec (.beginLoad l f) s = .next t)) ∧
    (s.accepts l .abandonLoad f = true →
      let t := match s.staging with
        | none => s.answered l f.tag (s.owner l) true (refusalAnswer f.tag .noLoad)
        | some g =>
          if g.owner = l then ({ s with staging := none } : State).answered l f.tag (s.owner l) true (completeAnswer f.tag)
          else s.answered l f.tag (s.owner l) true (refusalAnswer f.tag .loadBusy [BitVec.ofNat 8 (Link.code g.owner), 0, 0, 0])
      exec (.abandonLoad l f) s = .next t.settle ∧ (s.quiet = true → exec (.abandonLoad l f) s = .next t))) ∧
  ∀ (g : Staging) (key : SegKey) (image : SegImage),
    let (g', i) := g.stage key image
    g'.owner = g.owner ∧
    (∀ x ∈ g.segments, x.key ≠ key → x ∈ g'.segments) ∧
    ((g.segments.map (·.key)).Nodup → (g'.segments.map (·.key)).Nodup ∧ ⟨key, i, image⟩ ∈ g'.segments) ∧
    (key ∉ g.segments.map (·.key) → i = g.segments.length + 1 ∧ g'.segments = g.segments ++ [⟨key, i, image⟩]) ∧
    (∀ x ∈ g.segments, x.key = key → (g.segments.map (·.key)).Nodup → i = x.index)

/-- LOAD SEGMENT, EDIT PROFILE and EDIT SETTINGS, accepted, await the DATA frames of their image under wait d) and change
nothing else (R25 d, R36 d). A DATA frame of a table image (R25 d, R36 d, R177): before the last it joins the frames taken
and wait d) starts afresh. Wait d) is put off while wait g) runs, and bounds a LINK-BUSY answer that another wait had bounded
(R36 g). With the last frame, an image at fault is refused FORMAT with the offset; EDIT SETTINGS replaces every setting and
restarts the patrol timers (R170), and with the mode ONLINE gives a due, idle drive whose patrol it turns on a PATROL (R144);
EDIT PROFILE replaces the profile, or is refused PROFILE-ORDER (R169); LOAD SEGMENT stages its image under its key's index
(R165), or is refused NO-LOAD with no area open and LOAD-BUSY with the owner's letter for another link's. The key is that of
the form, host, drive and type which the ORDER frame names (R164, section 11.1). The offset answered is the least at fault: a
field outside the ranges of R174 or R165, a code that section 11.2 does not define, a field that differs from the ORDER's, or
in a spare map image a fault of R176's list. These are the model's choice: that EDIT SETTINGS leaves a due drive due, prompts
the patrol check and restarts the timer of a drive with a PATROL in its queue, and that EDIT PROFILE completed after a RESUME
replaces the profile while requests wait (log entry 19); that a refused image leaves the tag in use to the end of the
exchange (log entry 15); the letter with LOAD-BUSY, that a primary cylinder of 640 to 647 passes in a spare map image and one
above 647 is at fault, the offsets of records out of order, of retained counts and of unused bytes, the codes of the
auto-spare and patrol bytes, and what an unbound map's image holds of type and serial (log entry 9). -/
def Obligations.ImagesAreAwaitedAndTaken : Prop :=
  -- wait d) starts, or is put off while wait g) runs
  let awaits := fun (limit : Nat) (p : LinkPort) => match p.stall with
    | some ⟨.linkBusy, _⟩ => { p with due := some .image }
    | _ => { p with stall := some ⟨.image, limit⟩ }
  (∀ (i : Instr) (l : Link) (c : OrderCode) (f : OrderFrame) (order : ImageOrder) (n : Nat) (s : State),
      ((i = .loadSegment l f ∧ c = .loadSegment ∧ order = .loadSegment (segKeyOf f) ∧ n = if f.form = 5 then 3 else 1) ∨
        (i = .editProfile l f ∧ c = .editProfile ∧ order = .editProfile (if f.form = 1 then .d40 else .d80) ∧ n = 1) ∨
        (i = .editSettings l f ∧ c = .editSettings ∧ order = .editSettings ∧ n = 1)) →
      (s.link l).up = true → (s.link l).exchange = none → s.acceptance l c f = none →
      let t := s.updLink l (fun p => awaits s.settings.stallLimit { p with
        exchange := some (.order ⟨f.tag, s.owner l, true, .awaitImage order n []⟩), toSend := [] })
      exec i s = .next t.settle ∧ (s.quiet = true → exec i s = .next t)) ∧
  (∀ (l : Link) (tag : Byte) (index : BitVec 16) (data : List Byte) (s : State) (h : Option HostNo) (holds : Bool)
      (order : ImageOrder) (n : Nat) (taken : List (List Byte)),
      let p := s.link l
      p.exchange = some (.order ⟨tag, h, holds, .awaitImage order n taken⟩) → index.toNat = taken.length →
      let image := (taken ++ [data]).flatten
      let ends := fun (u : State) (a : Answer) => u.answered l tag h holds a
      (taken.length + 1 < n →
        exec (.imageDataTaken l tag index data) s = .next (s.updLink l (fun p => awaits s.settings.stallLimit { p with
          exchange := some (.order ⟨tag, h, holds, .awaitImage order n (taken ++ [data])⟩) }))) ∧
      (p.offered = none → p.toSend = [] → p.busyTags = [] → (∀ w, p.stall = some w → w.wait = .image) →
      (n ≤ taken.length + 1 → order = .editSettings →
        exec (.imageDataTaken l tag index data) s = .next (match firstFault (settingsImageFaults image) with
          | some o => ends s (refusalAnswer tag .format [2, BitVec.ofNat 8 (o / 256), BitVec.ofNat 8 o, 0])
          | none =>
            let st := settingsOf image
            let timer : PatrolTimer := if st.patrolInterval = 0 then .stopped else .running (st.patrolInterval * 100)
            let drives := s.drives.map (fun dr : Drive => { dr with patrolTimer := timer, patrolEvent := true })
            ends { s with settings := st, settingsLoaded := true, drives := drives } (completeAnswer tag)).settle) ∧
      (∀ d, n ≤ taken.length + 1 → order = .editSettings → firstFault (settingsImageFaults image) = none →
        s.quiet = true → s.mode = .online →
        ((settingsOf image).perDrive.get d).patrol = true → (settingsOf image).patrolInterval ≠ 0 →
        (s.drive d).patrolDue = true → (∀ k, k ≠ d → (s.drive k).patrolDue = false) → (s.drive d).state = .ready →
        (s.drive d).queue = [] → (s.drive d).map.isCopying (s.drive d).cursor = false →
        (s.drive d).cursor.cyl < (s.drive d).type.firstAlternate → (∀ c, s.copy = some c → c.request ≠ s.nextRequest) →
        ∃ t, exec (.imageDataTaken l tag index data) s = .next t ∧ (t.drive d).patrolDue = false ∧
          ∃ r, (t.drive d).queue = [r] ∧ r.kind = .patrol ∧ r.issuer = none ∧ r.start = (s.drive d).cursor.addr 0 ∧
            r.count = 32 ∧ r.state.holdsArm = true) ∧
      (∀ ty, n ≤ taken.length + 1 → order = .editProfile ty →
        exec (.imageDataTaken l tag index data) s = .next (match firstFault (profileImageFaults ty image) with
          | some o => ends s (refusalAnswer tag .format [2, BitVec.ofNat 8 (o / 256), BitVec.ofNat 8 o, 0])
          | none =>
            if (profileOf image).ordered ty = true then
              ends (match ty with
                | .d40 => { s with profile40 := some (profileOf image) }
                | .d80 => { s with profile80 := some (profileOf image) }) (completeAnswer tag)
            else ends s (refusalAnswer tag .editInvalid [6, 0, 0, 0])).settle) ∧
      (∀ key, n ≤ taken.length + 1 → order = .loadSegment key →
        exec (.imageDataTaken l tag index data) s = .next (match (segImageOf key image).1, s.staging with
          | some o, _ => ends s (refusalAnswer tag .format [2, BitVec.ofNat 8 (o / 256), BitVec.ofNat 8 o, 0])
          | none, none => ends s (refusalAnswer tag .noLoad)
          | none, some g =>
            if g.owner = l then ends { s with staging := some (g.stage key (segImageOf key image).2).1 }
              (completeAnswer tag [BitVec.ofNat 8 (g.stage key (segImageOf key image).2).2])
            else ends s (refusalAnswer tag .loadBusy [BitVec.ofNat 8 (Link.code g.owner), 0, 0, 0])).settle))) ∧
  -- the key of a segment
  (∀ f : OrderFrame,
    (f.form = 1 → segKeyOf f = .settings) ∧
    (∀ h : HostNo, f.form = 2 → imageByte f 16 = HostNo.code h → segKeyOf f = .host h) ∧
    (∀ (h : HostNo) (d : DriveNo), f.form = 3 → imageByte f 16 = HostNo.code h → f.drive.toNat = d.toNat → segKeyOf f = .fence h d) ∧
    (f.form = 4 → (imageByte f 17 = 1 → segKeyOf f = .profile .d40) ∧ (imageByte f 17 = 2 → segKeyOf f = .profile .d80)) ∧
    (∀ d : DriveNo, f.form = 5 → f.drive.toNat = d.toNat → segKeyOf f = .map d)) ∧
  -- the faults of an image: the least offset at fault is named
  ∀ image : List Byte,
    let b := fun i : Nat => (image.getD i 0).toNat
    let names := fun (found : Option Nat) (bad : Nat → Prop) =>
      (found = none ↔ ∀ o, ¬ bad o) ∧ ∀ o, found = some o → bad o ∧ ∀ p < o, ¬ bad p
    let out := fun (n o : Nat) => b o = 0 ∨ n < b o
    let settings := fun o : Nat => (o = 0 ∧ 7 < b o) ∨ (o = 2 ∧ out 15 o) ∨ (o = 3 ∧ 15 < b o) ∨ (o = 4 ∧ out 7 o) ∨
      (o = 5 ∧ out 2 o) ∨ ((o = 6 ∨ o = 8) ∧ b o = 0) ∨ (o = 42 ∧ b o ≠ 0) ∨
      ∃ i < 8, (o = 10 + 4 * i ∧ out 3 o) ∨ (o = 11 + 4 * i ∧ 15 < b o) ∨ ((o = 12 + 4 * i ∨ o = 13 + 4 * i) ∧ 1 < b o)
    let profile := fun (ty : DriveType) (o : Nat) =>
      (o = 0 ∧ b o ≠ match ty with | .d40 => 1 | .d80 => 2) ∨ (o = 1 ∧ 15 < b o)
    names (firstFault (settingsImageFaults image)) settings ∧ names (segImageOf .settings image).1 settings ∧
    (∀ ty, names (firstFault (profileImageFaults ty image)) (profile ty) ∧ names (segImageOf (.profile ty) image).1 (profile ty)) ∧
    (∀ h : HostNo, names (segImageOf (.host h) image).1 (fun o => (o = 0 ∧ b o ≠ HostNo.code h) ∨
      ((o = 1 ∨ o = 3) ∧ 15 < b o) ∨ ((o = 2 ∨ o = 4) ∧ 1 < b o) ∨ ((o = 6 ∨ o = 7) ∧ b o ≠ 0))) ∧
    (∀ (h : HostNo) (d : DriveNo), names (segImageOf (.fence h d) image).1 (fun o => (o = 0 ∧ b o ≠ HostNo.code h) ∨
      (o = 1 ∧ b o ≠ d.toNat) ∨ (o = 2 ∧ 4 < b o) ∨ (b 2 ≤ 4 ∧ ∃ i < b 2, o = 7 + 5 * i ∧ out 3 o))) ∧
    ∀ d : DriveNo,
      let n := b 5
      let retained := fun i : Nat => ((List.range i).map (fun j => b (15 + 12 * j))).sum
      let kept := if n ≤ 96 then retained n else 0
      let cyl := fun o : Nat => b o * 256 + b (o + 1)
      let before := fun p q : Nat => cyl p < cyl q ∨ (cyl p = cyl q ∧ b (p + 2) < b (q + 2))
      names (segImageOf (.map d) image).1 (fun o => (o = 0 ∧ 1 < b o) ∨
        (o = 1 ∧ b 0 = 1 ∧ 999999 < b 1 * 65536 + b 2 * 256 + b 3) ∨ (o = 4 ∧ if b 0 = 1 then out 2 o else b o ≠ 255) ∨
        (o = 5 ∧ 96 < n) ∨ ((o = 6 ∨ o = 7) ∧ b o ≠ 0) ∨
        (∃ i < 96, let p := 8 + 12 * i
          (i < n ∧ ((o = p ∧ (647 < cyl p ∨ (0 < i ∧ before p (p - 12)))) ∨ (o = p + 2 ∧ 11 < b o) ∨ (o = p + 3 ∧ 95 < b o) ∨
            ((o = p + 4 ∨ o = p + 5) ∧ out 3 o) ∨ (o = p + 6 ∧ 15 < b o) ∨ (o = p + 7 ∧ 96 < retained (i + 1)) ∨
            (o = p + 8 ∧ b (p + 4) = 1 ∧ ∃ j < 4, b (p + 8 + j) ≠ 0))) ∨
          (n ≤ i ∧ p ≤ o ∧ o < p + 12 ∧ b o ≠ 0)) ∨
        (1160 ≤ o ∧ o < 1256 ∧ out 3 o) ∨
        (1256 ≤ o ∧ o < 1352 ∧ if o - 1256 < kept then 95 < b o else b o ≠ 0) ∨ (1352 ≤ o ∧ o < 1536 ∧ b o ≠ 0))

/-- The read-outs answer COMPLETE with the number of their DATA frames and offer the frames of the image captured, 512
bytes each; nothing else changes but, under the clear option, the history, its overflow count and the deferred lists
(R25 e, R151, R171, R177). The layout of the READ SETTINGS frame is the model's choice (log entry 8), and so are the
bytes of the map, snapshot and history images that section 11.2 leaves open (log entry 9). READ CHECK RECORD answers
every field of the host's check record as it stands, then clears pending and the overwrite count and keeps the rest
(R150). The images are byte for byte those of section 11.2: the check record of 18 bytes; the spare map of 1536, entry by
entry; the 64 entry records of the history with the overflow count and the deferred lists, drive by drive; the 3456 bytes of
the snapshot, record by record; and the settings with their mark, profiles, host entries and fences. -/
def Obligations.ReadOutsAndCheckRecordsAreAnswered : Prop :=
  (∀ (i : Instr) (l : Link) (c : OrderCode) (f : OrderFrame) (n : Nat) (image : List Byte) (s u : State),
      ((i = .readMap l f ∧ c = .readMap ∧ n = 3 ∧ image = (s.drive (orderDrive f)).map.bytes ∧ u = s) ∨
        (i = .readSnapshot l f ∧ c = .readSnapshot ∧ n = 7 ∧ u = s ∧
          image = (s.openOrder l f.tag true).snapshotImage) ∨
        (i = .readHistory l f ∧ c = .readHistory ∧ n = 4 ∧ image = s.historyImage ∧ u = s) ∨
        (i = .readHistoryClear l f ∧ c = .readHistory ∧ n = 4 ∧ image = s.historyImage ∧
          u = { s with history := [], overflow := 0, drives := s.drives.map (fun dr => { dr with deferred := [] }) }) ∨
        (i = .readSettings l f ∧ c = .readSettings ∧ n = 1 ∧ image = s.settingsData ∧ u = s)) →
      s.accepts l c f = true →
      let t := u.answered l f.tag (s.owner l) true { tag := f.tag, result := .complete, frames := n }
        ((List.range n).map (fun k => .data f.tag k (fillTo 512 (image.drop (512 * k)))))
      exec i s = .next t.settle ∧ (s.quiet = true → exec i s = .next t)) ∧
  (∀ (l : Link) (f : OrderFrame) (h : HostNo) (x : HostState) (s : State), s.accepts l .readCheckRecord f = true →
      s.owner l = some h → s.host h = some x →
      let t := (s.updHost h (fun x => { x with check := { x.check with pending := false, overwrites := 0 } })).answered l f.tag
        (some h) true (completeAnswer f.tag x.check.bytes)
      exec (.readCheckRecord l f) s = .next t.settle ∧ (s.quiet = true → exec (.readCheckRecord l f) s = .next t)) ∧
  -- the codes of section 11
  ([Status.complete, .completeRecovered, .dataCheck, .voidSector, .seekCheck, .driveFault, .driveOffline, .noDrive,
      .chainCancelled, .linkStall, .linkLost, .linkReset, .reassigned, .noAlternate, .state].map Status.code =
      [1, 2, 3, 4, 5, 6, 7, 8, 9, 10, 11, 12, 13, 14, 15] ∧
    [Condition.ready, .notReady, .faulted, .offline, .absent, .incompatible].map Condition.code = [1, 2, 3, 4, 5, 6] ∧
    [DriveState.absent, .starting, .incompatible, .recalibrating, .ready, .moving, .orienting, .transferring, .faulted,
      .offline].map DriveState.code = [1, 2, 3, 4, 5, 6, 7, 8, 9, 10] ∧
    [Mode.loading, .online, .draining, .quiesced].map Mode.code = [1, 2, 3, 4] ∧
    [ReqKind.read, .write, .verify, .update, .reassign, .patrol, .autoReassign].map ReqKind.code = [1, 2, 3, 4, 5, 6, 7] ∧
    [ReqState.queued, .bound, .held, .positioning, .orienting, .transferring].map ReqState.code = [1, 2, 3, 4, 5, 6] ∧
    [Phase.idle, .awaiting, .streaming, .retryRevolution, .lostRevolution, .mergeRevolution, .flushing].map Phase.code =
      [1, 2, 3, 4, 5, 6, 7] ∧
    [Reason.unknownType, .serial, .type].map Reason.code = [1, 2, 3] ∧
    [Cause.faultLine, .recalFailed, .orientTimeout, .unsolicitedSeekCheck].map Cause.code = [1, 2, 3, 4]) ∧
  let slice := fun (xs : List Byte) (o n : Nat) => (xs.drop o).take n
  let b := fun n : Nat => BitVec.ofNat 8 n
  let two := fun n : Nat => [b (n / 256), b n]
  let three := fun n : Nat => [b (n / 65536), b (n / 256), b n]
  let four := fun v : BitVec 32 => [v.extractLsb' 24 8, v.extractLsb' 16 8, v.extractLsb' 8 8, v.extractLsb' 0 8]
  let opt := fun n : Option Nat => b (n.getD 255)
  let flag := fun x : Bool => if x = true then (1 : Byte) else 0
  let track := fun tr : Option Track => match tr with
    | some tr => two tr.cyl ++ [b tr.head]
    | none => [255, 255, 255]
  let link := fun l : Link => match l with | .a => 1 | .b => 2 | .c => 3 | .d => 4
  let host := fun h : HostNo => match h with | .h1 => 1 | .h2 => 2 | .h3 => 3 | .h4 => 4
  let form := fun x : Form => match x with | .new => 1 | .fill => 2
  let type := fun ty : DriveType => match ty with | .d40 => (1 : Byte) | .d80 => 2
  -- the check record
  (∀ c : CheckRecord, c.bytes =
    [flag c.pending] ++ (match c.code with
      | some (.completion st _) => [1, b st.code]
      | some (.spared x) => [4, b (form x)]
      | some (.voidTrack x) => [5, match x with | .copyEnd => 1 | .abort => 2]
      | some .suspect => [6, 255]
      | some (.driveState x) => [3, b x.code]
      | none => [255, 255]) ++ [opt (c.drive.map DriveNo.toNat)] ++ track c.logical ++ [opt c.sector] ++ track c.physical ++
      (match c.time with | some n => three n.toNat | none => [255, 255, 255]) ++ [b c.overwrites, match c.code with
        | some (.completion _ (some .c)) => 1
        | some (.completion _ (some .t)) => 2
        | _ => 255, 0, 0]) ∧
  -- the spare map
  (∀ m : SpareMap, m.entries.length ≤ 96 → m.pool.length = 96 → (m.entries.map (·.retained)).flatten.length ≤ 96 →
    m.bytes.length = 1536 ∧
    slice m.bytes 0 8 = (match m.bound with
      | some (n, ty) => [1] ++ three n.val ++ [type ty]
      | none => [0, 255, 255, 255, 255]) ++ [b m.entries.length, 0, 0] ∧
    (∀ i e, m.entries[i]? = some e → slice m.bytes (8 + 12 * i) 12 = two e.primary.cyl ++ [b e.primary.head, b e.alt,
      match e.state with | .active => 1 | .void _ => 2 | .copying _ => 3,
      match e.origin with | .loaded => 1 | .host => 2 | .auto => 3, b e.generation, b e.retained.length] ++
      (match e.state with | .active => [0, 0, 0, 0] | .void v => four v | .copying v => four v)) ∧
    (∀ i, m.entries.length ≤ i → i < 96 → slice m.bytes (8 + 12 * i) 12 = List.replicate 12 0) ∧
    slice m.bytes 1160 96 = m.pool.map (fun x => match x with | .free => 1 | .assigned => 2 | .retired => 3) ∧
    slice m.bytes 1256 96 = (m.entries.map (·.retained)).flatten.map b ++
      List.replicate (96 - (m.entries.map (·.retained)).flatten.length) 0 ∧
    slice m.bytes 1352 184 = List.replicate 184 0) ∧
  (∀ xs : List Byte, fillTo 512 xs = xs.take 512 ++ List.replicate (512 - xs.length) 0) ∧
  ∀ s : State,
    -- the history
    (s.history.length ≤ 64 →
      let xs := s.historyImage
      let lists := (DriveNo.all.map (fun d => (s.drive d).deferred.map (fun x => (d, x.track)))).flatten
      (∀ i e, s.history[i]? = some e → slice xs (20 * i) 20 = [1, b e.drive.toNat] ++ two e.track.cyl ++ [b e.track.head,
        b e.corrected, b e.retried, b e.unrecovered, b e.lastSector] ++ three e.firstSeen.toNat ++ three e.lastSeen.toNat ++
        [b ((if e.sparePending = true then 1 else 0) + (if e.suspect = true then 2 else 0)), 0, 0, 0, 0]) ∧
      (∀ i, s.history.length ≤ i → i < 64 →
        slice xs (20 * i) 20 = [0] ++ List.replicate 15 255 ++ List.replicate 4 0) ∧
      slice xs 1280 2 = [b s.overflow, b lists.length] ∧ xs.length = 1282 + 4 * lists.length ∧
      ∀ i d tr, lists[i]? = some (d, tr) → slice xs (1282 + 4 * i) 4 = [b d.toNat] ++ two tr.cyl ++ [b tr.head]) ∧
    -- the snapshot
    ((∀ d, (s.drive d).queue.length ≤ 16) →
      let xs := s.snapshotImage
      xs.length = 3456 ∧
      slice xs 0 16 = [b s.mode.code, flag s.staging.isSome, opt (s.staging.map (fun g => link g.owner))] ++
        three s.time.toNat ++ List.replicate 10 0 ∧
      (∀ l, let p := s.link l
        slice xs (8 + 8 * link l) 8 = [if p.up = false then 1 else if p.exchange = none then 2 else 3,
          opt ((s.owner l).map host), match p.exchange with
            | none => 0
            | some (.order _) => 1
            | some (.transfer _ _ _) => 2
            | some (.report _) => 3,
          flag p.chain.isSome, opt (p.chain.map (fun c => c.drive.toNat)), b ((p.chain.map (·.members)).getD 0), 0, 0]) ∧
      (∀ d, let dr := s.drive d
        slice xs (48 + 32 * d.toNat) 32 = [b dr.state.code, b dr.state.condition.code] ++ track dr.pos ++ [opt dr.slot,
          flag dr.cap.isSome] ++ (match dr.cap with
            | some c => [match c.code with | .d40 => 1 | .d80 => 2 | .unknown => 3] ++ three c.serial.val
            | none => [255, 255, 255, 255]) ++ [opt (dr.reason.map Reason.code), opt (dr.cause.map Cause.code)] ++
          track dr.armTarget ++ track (dr.armTarget.bind (reverse dr.type dr.map)) ++ [opt (dr.lastHost.map host),
          b dr.runLength, opt (dr.claim.holder.map host), opt (dr.claim.waiting[0]?.map host),
          opt (dr.claim.waiting[1]?.map host), opt (dr.claim.waiting[2]?.map host)] ++
          (match dr.claim.orphan with | some n => two ((n + 999) / 1000) | none => [255, 255]) ++ two dr.cursor.cyl ++
          [b dr.cursor.head] ++ (match dr.patrolTimer with
            | .stopped => [1, 255]
            | .running n => [2, b ((n + 99) / 100)]
            | .expired => [3, 255])) ∧
      (∀ d i r, (s.drive d).queue[i]? = some r → slice xs (304 + 384 * d.toNat + 24 * i) 24 =
        [match r.issuer with | some i => i.tag | none => 0, opt (r.issuer.map (fun i => host i.host)), b r.kind.code,
          b r.state.code] ++ two r.start.cyl ++ [b r.start.head, b r.start.sector, b r.count, b r.done, b r.passes,
          b r.misses, b r.seekChecks] ++ List.replicate 11 0) ∧
      (∀ d i, (s.drive d).queue.length ≤ i → i < 16 →
        slice xs (304 + 384 * d.toNat + 24 * i) 24 = List.replicate 24 0) ∧
      (∀ e, let g := s.engine e
        slice xs (match e with | .e0 => 3376 | .e1 => 3384) 8 = match g.service with
          | none => [0, 255, 255, 255, b g.phase.code, 255, 0, 0]
          | some v => [1, b v.drive.toNat, match v.issuer with | some i => i.tag | none => 0, b v.kind.code,
              b g.phase.code, opt (v.issuer.map (fun i => host i.host)), 0, 0]) ∧
      slice xs 3392 32 = (match s.copy with
        | none => [1] ++ List.replicate 13 255 ++ List.replicate 18 0
        | some c => [2, b c.drive.toNat, b c.kind.code, match c.issuer with | some i => i.tag | none => 0,
            opt (c.issuer.map (fun i => host i.host)), b (form c.form)] ++ track (some c.logical) ++ track (some c.source) ++
            [b c.dest, match c.phase with | .read => 1 | .write => 2] ++ four c.toRead ++ four c.captured ++
            four c.unrecovered ++ List.replicate 6 0) ∧
      ∀ h, slice xs (3416 + 8 * host h) 8 = match s.host h with
        | none => [0, 255, 255, 255, 255, 255, 0, 0]
        | some x => [1, b x.reserved, b x.completions, b (x.queue.length - x.completions), b x.lost,
            opt (x.reportLink.map link), flag (s.reachable h), 0]) ∧
    -- the settings
    ((∀ p, s.profile40 = some p ∨ s.profile80 = some p → p.points.length = 8) →
      let xs := s.settingsImage
      let st := s.settings
      (xs.length ≤ 512 → s.settingsData = fillTo 512 xs) ∧
      slice xs 0 10 = [b st.lead, b st.aging, b st.forced, b st.rotation, b st.missLimit,
        match st.rounding with | .chop => 1 | .round => 2, b st.stallLimit, b st.orphanLimit, b st.spareThreshold,
        b st.patrolInterval] ∧
      (∀ d, let x := st.perDrive.get d
        slice xs (10 + 4 * d.toNat) 4 =
          [match x.ecc with | .off => 1 | .detect => 2 | .correct => 3, b x.retries, flag x.autoSpare, flag x.patrol]) ∧
      slice xs 42 1 = [flag s.settingsLoaded] ∧
      (∀ ty : DriveType, slice xs (match ty with | .d40 => 43 | .d80 => 77) 34 =
        match (match ty with | .d40 => s.profile40 | .d80 => s.profile80) with
          | some p => [type ty, b p.headSwitch] ++ (p.points.map (fun q => two q.1 ++ two q.2)).flatten
          | none => List.replicate 34 255) ∧
      (∀ h, slice xs (103 + 8 * host h) 8 = match s.host h with
        | some x =>
          let n := fun (c : Bool) (k : Nat) => if c = true then k else 0
          [b (host h), b x.entry.links.toNat, flag x.entry.authority,
            b (n x.entry.enableC 1 + n x.entry.enableT 2 + n x.entry.enableS 4 + n x.entry.enableE 8), flag x.entry.inhibit,
            b x.entry.watch.toNat, 0, 0]
        | none => [255, 255, 255, 255, 255, 255, 0, 0]) ∧
      xs.drop 143 = (HostNo.all.map (fun h => (DriveNo.all.map (fun d =>
        let es := (s.fences.get h).get d
        if es = [] then [] else [b (host h), b d.toNat, b es.length] ++ (es.map (fun x =>
          two x.low ++ two x.high ++ [b (match x.access with | .read => 1 | .write => 2 | .readWrite => 3)])).flatten)).flatten)).flatten)

/-- END LOAD (R166): refused NO-LOAD with no area open, LOAD-BUSY from another link, with the owner's letter by the model's
choice (log entry 9); the first condition that fails is
answered LOAD-INVALID with reason and segment index, and closes the area with every table as it was. The conditions:
some HOST segment; exactly one with authority; both profiles; then each segment in index order, by its type and in the
order of R166's table. -/
def Obligations.InvalidBundlesAreRefused : Prop :=
  (∀ (l : Link) (f : OrderFrame) (s : State), s.accepts l .endLoad f = true →
      (s.staging = none →
        let t := s.answered l f.tag (s.owner l) true (refusalAnswer f.tag .noLoad)
        exec (.endLoad l f) s = .next t.settle ∧ (s.quiet = true → exec (.endLoad l f) s = .next t)) ∧
      (∀ g, s.staging = some g → g.owner ≠ l →
        let t := s.answered l f.tag (s.owner l) true
          (refusalAnswer f.tag .loadBusy [BitVec.ofNat 8 (Link.code g.owner), 0, 0, 0])
        exec (.endLoad l f) s = .next t.settle ∧ (s.quiet = true → exec (.endLoad l f) s = .next t)) ∧
      (∀ g r n, s.staging = some g → g.owner = l → g.invalid = some (r, n) →
        let t := ({ s with staging := none } : State).answered l f.tag (s.owner l) true
          (refusalAnswer f.tag .loadInvalid [BitVec.ofNat 8 r.code, BitVec.ofNat 8 n, 0, 0])
        exec (.endLoad l f) s = .next t.settle ∧ (s.quiet = true → exec (.endLoad l f) s = .next t))) ∧
  ∀ g : Staging,
    let last := fun m : SpareMap => match m.bound with
      | some (_, .d40) => 319
      | _ => 639
    let ordered := fun (ty : DriveType) (p : Profile) =>
      p.points.length = 8 ∧ (∀ q, p.points.head? = some q → q.1 = 1 ∧ 1 ≤ q.2) ∧
      (p.points.map (·.1)).Pairwise (· < ·) ∧ (p.points.map (·.2)).Pairwise (· ≤ ·) ∧
      ∀ q, p.points.getLast? = some q → (match ty with | .d40 => 319 | .d80 => 639) ≤ q.1 ∧ q.2 ≤ 1023
    let conditions : Segment → List (Prop × InvalidReason) := fun x => match x.key, x.image with
      | .host _, .host e =>
        [(e.links = 0, .emptyGroup),
         (∃ y ∈ g.segments, ∃ e', y.index < x.index ∧ y.image = .host e' ∧ e'.links &&& e.links ≠ 0, .linkOwned)]
      | .profile ty, .profile p => [(¬ ordered ty p, .profileOrder)]
      | .fence h d, .fence xs =>
        [(g.host? h = none, .noHost), (∃ e ∈ xs, e.high < e.low, .extentOrder),
         (∃ e ∈ xs, (match g.map? d with | some m => last m | none => 639) < e.high, .extentRange)]
      | .map _, .map m =>
        [(∃ e ∈ m.entries, last m < e.primary.cyl, .primaryRange),
         (¬ (m.entries.map (fun e => e.primary.cyl * 12 + e.primary.head)).Nodup, .entryExists),
         (¬ m.named.Nodup, .alternateShared),
         (¬ ∀ a < 96, (m.altState a = .assigned ↔ a ∈ m.named), .poolMismatch),
         (∃ e ∈ m.entries, ∃ v, e.state = .copying v, .copyingEntry),
         (∃ e ∈ m.entries, e.state = .void (BitVec.allOnes 32), .voidFull)]
      | _, _ => []
    let clean := fun x => ∀ p ∈ conditions x, ¬ p.1
    let someHost := ∃ h, g.host? h ≠ none
    let authority := fun h => ∃ e, g.host? h = some e ∧ e.authority = true
    let oneAuthority := ∃ h, authority h ∧ ∀ k, authority k → k = h
    let profiles := g.profile? .d40 ≠ none ∧ g.profile? .d80 ≠ none
    (¬ someHost → g.invalid = some (.noHost, 0)) ∧
    (someHost → ¬ oneAuthority → g.invalid = some (.authorityCount, 0)) ∧
    (someHost → oneAuthority → ¬ profiles → g.invalid = some (.profileMissing, 0)) ∧
    (someHost → oneAuthority → profiles →
      (∀ before x after pre (p : Prop) r post, g.segments = before ++ x :: after → (∀ y ∈ before, clean y) →
        conditions x = pre ++ (p, r) :: post → (∀ q ∈ pre, ¬ q.1) → p → g.invalid = some (r, x.index)) ∧
      ((∀ x ∈ g.segments, clean x) → g.invalid = none))

/-- END LOAD of a bundle that meets every condition installs it (R167): hosts with fresh queues whose first frame is
STRING-RESET with cause LOAD, fences, profiles, settings, maps with claims, deferred lists, patrol and scheduling state
cleared and the history empty; the patrol timers start at the new interval (R144); the mode is ONLINE, the area closed and
the answer COMPLETE. Each position with a record of a known type then meets the binding check (R7, R8): an unbound map adopts
the record; on a failure a drive in READY, MOVING or RECALIBRATING is sent STOP and is INCOMPATIBLE with the reason, and an
INCOMPATIBLE one has its reason renewed; on success an INCOMPATIBLE drive recalibrates; in other states nothing changes. A
due drive that is then READY with an empty queue and its patrol setting on, the new interval not 0, has a PATROL of track 0/0
placed that takes the arm, its timer expired (R144, R145); on every other drive the queue stays as it was. That a due drive
stays due over the installation is the model's choice (log entry 19). -/
def Obligations.ValidBundlesAreInstalled : Prop :=
  ∀ (l : Link) (f : OrderFrame) (g : Staging) (s : State), s.accepts l .endLoad f = true → s.calm = true →
    s.staging = some g → g.owner = l → g.invalid = none → ∃ t, exec (.endLoad l f) s = .next t ∧
    t.mode = .online ∧ t.staging = none ∧ t.history = [] ∧ t.overflow = 0 ∧ t.time = s.time ∧
    t.settings = g.settings?.getD Settings.default ∧ t.settingsLoaded = g.settings?.isSome ∧
    t.profile40 = g.profile? .d40 ∧ t.profile80 = g.profile? .d80 ∧
    (∀ h, (t.host h).map (·.entry) = g.host? h) ∧
    (∀ h x, t.host h = some x → x.reserved = 0 ∧ x.lost = 0 ∧ x.queue.head? = some ⟨s.time, .stringReset .load⟩) ∧
    (∀ h d, (t.fences.get h).get d = g.fence h d) ∧
    (∀ d, let dr := t.drive d
      dr.claim = ⟨none, [], none⟩ ∧ dr.deferred = [] ∧ dr.cursor = ⟨0, 0⟩ ∧ dr.lastHost = none ∧ dr.runLength = 0 ∧
      dr.cap = (s.drive d).cap ∧
      dr.map.entries = ((g.map? d).getD SpareMap.empty).entries ∧
      dr.map.pool = ((g.map? d).getD SpareMap.empty).pool) ∧
    (∀ d,
      let old := s.drive d
      let dr := t.drive d
      let m := (g.map? d).getD SpareMap.empty
      let checked := old.state = .ready ∨ old.state = .moving ∨ old.state = .recalibrating
      let fails : Option Reason := match old.cap.bind (fun c => (typeOfCode c.code).map (fun ty => (c.serial, ty))), m.bound with
        | some (n, ty), some (k, ty') => if k ≠ n then some .serial else if ty' ≠ ty then some .type else none
        | _, _ => none
      let patrols := old.patrolDue = true ∧ t.settings.patrolInterval ≠ 0 ∧ (t.settings.perDrive.get d).patrol = true ∧
        old.queue = [] ∧ old.state = .ready ∧ fails = none
      (patrols → dr.patrolDue = false ∧ dr.patrolTimer = .expired ∧ (dr.state = .moving ∨ dr.state = .orienting) ∧
        ∃ r, dr.queue = [r] ∧ r.kind = .patrol ∧ r.issuer = none ∧ r.start = ⟨0, 0, 0⟩ ∧ r.count = 32 ∧
          r.state.holdsArm = true) ∧
      (¬ patrols → dr.queue = old.queue ∧ dr.patrolDue = old.patrolDue ∧
        dr.patrolTimer = (if t.settings.patrolInterval = 0 then .stopped else .running (t.settings.patrolInterval * 100))) ∧
      ((old.cap = none ∨ ∃ n, old.cap = some ⟨.unknown, n⟩) → dr.map = m ∧
        (¬ patrols → dr.state = old.state ∧ dr.reason = old.reason)) ∧
      (∀ code n ty, old.cap = some ⟨code, n⟩ → typeOfCode code = some ty →
        (¬ checked → old.state ≠ .incompatible → dr.map = m ∧ dr.state = old.state) ∧
        (checked → fails = none → dr.map = { m with bound := some (n, ty) } ∧
          (¬ patrols → dr.state = old.state ∧ dr.sent = old.sent)) ∧
        (∀ r, checked → fails = some r →
          dr.map = m ∧ dr.state = .incompatible ∧ dr.reason = some r ∧ dr.sent = old.sent ++ [.stop]) ∧
        (old.state = .incompatible → fails = none → dr.map = { m with bound := some (n, ty) } ∧
          dr.state = .recalibrating ∧ dr.seekTimer = some 120 ∧ dr.sent = old.sent ++ [.recalibrate]) ∧
        (∀ r, old.state = .incompatible → fails = some r → dr.map = m ∧ dr.state = .incompatible ∧ dr.reason = some r))) ∧
    (t.link l).offered = some (.frame (.answer (completeAnswer f.tag)))

/-- EDIT HOST SET (R48 a, R49): refused LINK-OWNED, EMPTY-GROUP or AUTHORITY-COUNT with nothing changed; otherwise the entry
is added or replaced, authority passing to it when it sets authority; every existing host keeps its report queue, report
link, reservations, lost count, check record and fences, a new one starts with an empty queue, a clear record and no extents;
claims and waiting lists stay, the orphan timers of the drives it holds starting when its path group leaves it cut off and
stopping when it makes it reachable (R49 b). That several faults are tested in the order of R48's table is the model's
choice, and so is that a byte out of its range in the image, a host byte outside 1 to 4 in REMOVE among them, has been
refused FORMAT before (log entry 9). EDIT HOST REMOVE (R48 b, R49 e): refused AUTHORITY-COUNT for the authority host and
NOT-PRESENT for a number with no entry; otherwise the entry, its queue and its fences are gone, and the host holds no claim
and waits nowhere, while other holders keep their claims and the lists close up. Each claim it held goes to the first host
that waits, with an orphan timer when that host is cut off, and that host is sent CLAIM-GRANTED with cause REMOVED (R54); for
several drives in ascending order, which is the model's choice (log entry 12). -/
def Obligations.HostEntriesAreSetAndRemoved : Prop :=
  (∀ (l : Link) (f : OrderFrame) (h : HostNo) (s : State), s.accepts l .editHost f = true →
      HostNo.ofNat? (imageByte f 16) = some h →
      let e := hostEntryOf (fun i => imageByte f (16 + i))
      let owned := ∃ k x, k ≠ h ∧ s.host k = some x ∧ x.entry.links &&& e.links ≠ 0
      let orphan := if s.settings.orphanLimit = 0 then none else some (s.settings.orphanLimit * 1000)
      let refused := fun (r : InvalidReason) =>
        s.answered l f.tag (s.owner l) true (refusalAnswer f.tag .editInvalid [BitVec.ofNat 8 r.code, 0, 0, 0])
      (owned → exec (.editHostSet l f) s = .next (refused .linkOwned).settle) ∧
      (¬ owned → e.links = 0 → exec (.editHostSet l f) s = .next (refused .emptyGroup).settle) ∧
      (¬ owned → e.links ≠ 0 → s.authorityHost = some h → e.authority = false →
        exec (.editHostSet l f) s = .next (refused .authorityCount).settle) ∧
      (¬ owned → e.links ≠ 0 → (s.authorityHost = some h → e.authority = true) → ∃ t, exec (.editHostSet l f) s = .next t ∧
        (t.host h).map (·.entry) = some e ∧
        (∀ k, k ≠ h → (t.host k).map (·.entry) =
          (s.host k).map (fun x => if e.authority = true then { x.entry with authority := false } else x.entry)) ∧
        (∀ k d, (t.fences.get k).get d = if k = h ∧ s.host h = none then [] else (s.fences.get k).get d) ∧
        (∀ d, (t.drive d).claim.holder = (s.drive d).claim.holder ∧ (t.drive d).claim.waiting = (s.drive d).claim.waiting) ∧
        (∀ d, let c := (s.drive d).claim
          let after := Link.all.any (fun k => e.owns k && (s.link k).up)
          (t.drive d).claim =
            if c.holder = some h ∧ s.reachable h = true ∧ after = false then { c with orphan := orphan }
            else if c.holder = some h ∧ s.reachable h = false ∧ after = true then { c with orphan := none }
            else c) ∧
        (s.calm = true → s.drained = true →
          (∀ k x, s.host k = some x → ∃ y, t.host k = some y ∧ y.queue = x.queue ∧ y.reserved = x.reserved ∧
            y.lost = x.lost ∧ y.check = x.check ∧ ∀ j, x.reportLink = some j → y.reportLink = some j) ∧
          (s.host h = none → t.host h = some (HostState.fresh e))) ∧
        t.settings = s.settings ∧ t.staging = s.staging ∧ t.time = s.time ∧ t.mode = s.mode ∧
        (t.link l).offered = some (.frame (.answer (completeAnswer f.tag))))) ∧
  (∀ (l : Link) (f : OrderFrame) (h : HostNo) (s : State), s.accepts l .editHost f = true →
      HostNo.ofNat? (imageByte f 16) = some h →
      let refused := fun (r : InvalidReason) =>
        s.answered l f.tag (s.owner l) true (refusalAnswer f.tag .editInvalid [BitVec.ofNat 8 r.code, 0, 0, 0])
      let waiters := fun d : DriveNo => (s.drive d).claim.waiting.filter (· != h)
      (s.authorityHost = some h → exec (.editHostRemove l f) s = .next (refused .authorityCount).settle) ∧
      (s.authorityHost ≠ some h → s.host h = none → exec (.editHostRemove l f) s = .next (refused .notPresent).settle) ∧
      (s.authorityHost ≠ some h → (s.host h).isSome = true → ∃ t, exec (.editHostRemove l f) s = .next t ∧
        t.host h = none ∧ (∀ d, (t.fences.get h).get d = []) ∧
        (∀ k, k ≠ h → (t.host k).map (·.entry) = (s.host k).map (·.entry) ∧ t.fences.get k = s.fences.get k) ∧
        (∀ d, (t.drive d).claim.holder ≠ some h ∧ h ∉ (t.drive d).claim.waiting) ∧
        (∀ d, (s.drive d).claim.holder ≠ some h → (t.drive d).claim =
          { (s.drive d).claim with waiting := (s.drive d).claim.waiting.filter (· != h) }) ∧
        (∀ d, (s.drive d).claim.holder = some h → (t.drive d).claim = match waiters d with
          | [] => ⟨none, [], none⟩
          | g :: rest => ⟨some g, rest, if s.reachable g = true ∨ s.settings.orphanLimit = 0 then none
              else some (s.settings.orphanLimit * 1000)⟩) ∧
        (∀ g x, g ≠ h → s.host g = some x →
          let gained := DriveNo.all.filter (fun d => (s.drive d).claim.holder == some h && (waiters d).head? == some g)
          let told := gained.foldl (fun x d => x.enqueue ⟨s.time, .claimGranted d h .removed⟩) x
          ∃ y, t.host g = some y ∧ told.queue <+: y.queue ∧
            (s.calm = true → y.queue = told.queue ∧ y.lost = told.lost ∧ y.reserved = x.reserved ∧ y.check = x.check)) ∧
        t.settings = s.settings ∧ t.staging = s.staging ∧ t.time = s.time ∧
        (t.link l).offered = some (.frame (.answer (completeAnswer f.tag)))))

/-- EDIT FENCE (R63): refused NO-HOST, EXTENT-ORDER or EXTENT-RANGE leaving the fence as it was; otherwise its 0 to 4 extents
replace the host's whole fence on the drive and nothing else changes. That several faults are tested in this order is the
model's choice, and so is that a host byte outside 1 to 4 has been refused FORMAT before (log entry 9). -/
def Obligations.FencesAreEdited : Prop :=
  ∀ (l : Link) (f : OrderFrame) (h : HostNo) (s : State), s.accepts l .editFence f = true →
    HostNo.ofNat? (imageByte f 16) = some h →
    let d := orderDrive f
    let extents := (List.range (imageByte f 18)).map (fun i => (⟨imageWord f (19 + 5 * i), imageWord f (21 + 5 * i),
      accessOf (imageByte f (23 + 5 * i))⟩ : Extent))
    let last := match (s.drive d).map.bound with
      | some (_, .d40) => 319
      | _ => 639
    let refused := fun (r : InvalidReason) =>
      s.answered l f.tag (s.owner l) true (refusalAnswer f.tag .editInvalid [BitVec.ofNat 8 r.code, 0, 0, 0])
    let t :=
      if s.host h = none then refused .noHost
      else if ∃ x ∈ extents, x.high < x.low then refused .extentOrder
      else if ∃ x ∈ extents, last < x.high then refused .extentRange
      else ({ s with fences := s.fences.set h ((s.fences.get h).set d extents) } : State).answered l f.tag (s.owner l) true
        (completeAnswer f.tag)
    exec (.editFence l f) s = .next t.settle ∧ (s.quiet = true → exec (.editFence l f) s = .next t)

/-- EDIT MAP ADD (R118): refused PRIMARY-RANGE, ENTRY-EXISTS, NOT-FREE or BUSY-TRACK with the map as it was; otherwise
an ACTIVE entry of origin HOST, generation 0, stands at its place in sort order and its alternate is ASSIGNED. EDIT
MAP REMOVE (R119): refused NO-ENTRY, or BUSY-TRACK while the entry is COPYING or a request touches its track;
otherwise the entry is gone and its alternate and retained alternates are FREE. EDIT MAP RETIRE (R120): NOT-FREE for
an ASSIGNED alternate, a FREE one becomes RETIRED, a RETIRED one stays. -/
def Obligations.MapEntriesAreEdited : Prop :=
  (∀ (l : Link) (f : OrderFrame) (s : State), s.accepts l .editMap f = true →
      let d := orderDrive f
      let m := (s.drive d).map
      let tr : Track := ⟨imageWord f 16, imageByte f 18⟩
      let a := imageByte f 19
      let last := match m.bound with
        | some (_, .d40) => 319
        | _ => 639
      let refused := fun (r : InvalidReason) =>
        s.answered l f.tag (s.owner l) true (refusalAnswer f.tag .editInvalid [BitVec.ofNat 8 r.code, 0, 0, 0])
      let t :=
        if last < tr.cyl then refused .primaryRange
        else if ∃ e ∈ m.entries, e.primary = tr then refused .entryExists
        else if m.altState a ≠ .free then refused .notFree
        else if ∃ r ∈ (s.drive d).queue, r.touches tr = true then
          s.answered l f.tag (s.owner l) true (refusalAnswer f.tag .busyTrack
            [BitVec.ofNat 8 (tr.cyl / 256), BitVec.ofNat 8 tr.cyl, BitVec.ofNat 8 tr.head, 255])
        else
          let e : Entry := { primary := tr, alt := a, state := .active, retained := [], origin := .host, generation := 0 }
          let m' : SpareMap := { m with entries := insertEntry e m.entries, pool := m.pool.set a .assigned }
          (s.updDrive d (fun dr => { dr with map := m' })).answered l f.tag (s.owner l) true (completeAnswer f.tag)
      exec (.editMapAdd l f) s = .next t.settle ∧ (s.quiet = true → exec (.editMapAdd l f) s = .next t)) ∧
  ((∀ (l : Link) (f : OrderFrame) (s : State), s.accepts l .editMap f = true →
      let d := orderDrive f
      let m := (s.drive d).map
      let tr : Track := ⟨imageWord f 16, imageByte f 18⟩
      (m.entry? tr = none →
        let t := s.answered l f.tag (s.owner l) true (refusalAnswer f.tag .editInvalid [16, 0, 0, 0])
        exec (.editMapRemove l f) s = .next t.settle ∧ (s.quiet = true → exec (.editMapRemove l f) s = .next t)) ∧
      (∀ e, m.entry? tr = some e →
        ((∃ v, e.state = .copying v) ∨ (∃ r ∈ (s.drive d).queue, r.touches tr = true) →
          let t := s.answered l f.tag (s.owner l) true (refusalAnswer f.tag .busyTrack
            [BitVec.ofNat 8 (tr.cyl / 256), BitVec.ofNat 8 tr.cyl, BitVec.ofNat 8 tr.head, 255])
          exec (.editMapRemove l f) s = .next t.settle ∧ (s.quiet = true → exec (.editMapRemove l f) s = .next t)) ∧
        ((∀ v, e.state ≠ .copying v) → (∀ r ∈ (s.drive d).queue, r.touches tr = false) → ∃ m',
          (let t := (s.updDrive d (fun dr => { dr with map := m' })).answered l f.tag (s.owner l) true (completeAnswer f.tag)
          exec (.editMapRemove l f) s = .next t.settle ∧ (s.quiet = true → exec (.editMapRemove l f) s = .next t)) ∧
          m'.bound = m.bound ∧ m'.entries = m.entries.filter (fun x => x.primary != tr) ∧ m'.pool.length = m.pool.length ∧
          (∀ a < m.pool.length, m'.altState a = if a = e.alt ∨ a ∈ e.retained then .free else m.altState a)))) ∧
    (∀ (l : Link) (f : OrderFrame) (s : State), s.accepts l .editMap f = true →
      let d := orderDrive f
      let m := (s.drive d).map
      let a := imageByte f 19
      let t := match m.altState a with
        | .assigned => s.answered l f.tag (s.owner l) true (refusalAnswer f.tag .editInvalid [15, 0, 0, 0])
        | .free => (s.updDrive d (fun dr => { dr with map := { m with pool := m.pool.set a .retired } })).answered l f.tag
            (s.owner l) true (completeAnswer f.tag)
        | .retired => s.answered l f.tag (s.owner l) true (completeAnswer f.tag)
      exec (.editMapRetire l f) s = .next t.settle ∧ (s.quiet = true → exec (.editMapRetire l f) s = .next t)))

/-- EDIT MAP REBIND (R9, R121, R130): refused NO-RECORD, UNKNOWN-TYPE, or BUSY-TRACK with the first request's start;
otherwise the map is empty with every alternate FREE, bound to the drive's record, and an INCOMPATIBLE drive
recalibrates, its new condition raised to the watching hosts. A copy whose request a STRING RESET has taken from the
queue keeps the REBIND off too, the detail then naming sector 0 of its track: the model's choice (log entry 20). That an
INCOMPATIBLE drive may hold a request, which then keeps the REBIND off, is so too (log entry 23). -/
def Obligations.MapsAreRebound : Prop :=
  ∀ (l : Link) (f : OrderFrame) (s : State), s.accepts l .editMap f = true →
    let d := orderDrive f
    let dr := s.drive d
    let answer := fun (u : State) (a : Answer) => u.answered l f.tag (s.owner l) true a
    (dr.cap = none → exec (.editMapRebind l f) s =
      .next (answer s (refusalAnswer f.tag .editInvalid [17, 0, 0, 0])).settle) ∧
    (∀ n, dr.cap = some ⟨.unknown, n⟩ → exec (.editMapRebind l f) s =
      .next (answer s (refusalAnswer f.tag .editInvalid [18, 0, 0, 0])).settle) ∧
    (∀ c ty, dr.cap = some c → typeOfCode c.code = some ty →
      let m : SpareMap := { bound := some (c.serial, ty), entries := [], pool := List.replicate 96 .free }
      (∀ r rest, dr.queue = r :: rest → exec (.editMapRebind l f) s = .next (answer s (refusalAnswer f.tag .busyTrack
        [BitVec.ofNat 8 (r.start.cyl / 256), BitVec.ofNat 8 r.start.cyl, BitVec.ofNat 8 r.start.head,
          BitVec.ofNat 8 r.start.sector])).settle) ∧
      (∀ x, dr.queue = [] → s.copy = some x → x.drive = d → exec (.editMapRebind l f) s = .next (answer s (refusalAnswer
        f.tag .busyTrack [BitVec.ofNat 8 (x.logical.cyl / 256), BitVec.ofNat 8 x.logical.cyl, BitVec.ofNat 8 x.logical.head,
          0])).settle) ∧
      (dr.queue = [] → (∀ x, s.copy = some x → x.drive ≠ d) → dr.state ≠ .incompatible →
        let t := answer (s.updDrive d (fun dr => { dr with map := m })) (completeAnswer f.tag)
        exec (.editMapRebind l f) s = .next t.settle ∧ (s.quiet = true → exec (.editMapRebind l f) s = .next t)) ∧
      (dr.queue = [] → (∀ x, s.copy = some x → x.drive ≠ d) → dr.state = .incompatible →
        let u := s.updDrive d (fun dr => { ({ dr with map := m } : Drive).enter .recalibrating with
          sent := dr.sent ++ [.recalibrate], seekTimer := some 120 })
        exec (.editMapRebind l f) s = .next (answer
          (u.raise .e d ⟨.driveState .ready, d, none, none, none⟩ (.driveState d .ready)) (completeAnswer f.tag)).settle))

/-- QUIESCE in ONLINE makes the mode DRAINING and takes the AUTO-REASSIGNs not begun out of the queues to the heads of
the deferred lists, in queue order (R161 a); the drain test follows in `settle`. In DRAINING and QUIESCED nothing
changes (R161 b). RESUME in ONLINE changes nothing; in DRAINING and QUIESCED the mode is ONLINE, staging is discarded, each
drive's deferred tracks go to the tail of its queue as AUTO-REASSIGNs, oldest first while it has room, and the patrol check
is prompted on every drive (R142, R163). A place freed in a full queue while the mode is ONLINE takes the oldest deferred
track, a selection event following; any other request that leaves just closes the queue up (R64, R142). That the place is
taken in the step that frees it is the model's choice (log entry 15). -/
def Obligations.ModeFollowsQuiesceAndResume : Prop :=
  ∀ (l : Link) (f : OrderFrame) (s : State),
    (s.accepts l .quiesce f = true →
      let out : Request → Bool := fun r =>
        r.kind == .autoReassign && (r.state == .queued || r.state == .held) && s.copy.all (fun c => c.request != r.id)
      let moved := s.drives.map (fun dr : Drive => { dr with
        queue := dr.queue.filter (fun r => !out r)
        deferred := (dr.queue.filter out).map (fun r => ⟨r.start.track, r.histKey.getD r.start.track⟩) ++ dr.deferred })
      let u : State := if s.mode = .online then { s with mode := .draining, drives := moved } else s
      exec (.quiesce l f) s = .next (u.answered l f.tag (s.owner l) true (completeAnswer f.tag)).settle) ∧
    (s.accepts l .resume f = true →
      (s.mode = .online →
        let t := s.answered l f.tag (s.owner l) true (completeAnswer f.tag)
        exec (.resume l f) s = .next t.settle ∧ (s.quiet = true → exec (.resume l f) s = .next t)) ∧
      (s.mode = .draining ∨ s.mode = .quiesced → (∀ d, (s.drive d).deferred = []) →
        let prompted := s.drives.map (fun dr : Drive => { dr with patrolEvent := true })
        let u : State := { s with mode := .online, staging := none, drives := prompted }
        exec (.resume l f) s = .next (u.answered l f.tag (s.owner l) true (completeAnswer f.tag)).settle ∧
        (s.quiet = true → (∀ d, (s.drive d).patrolDue = false) →
          exec (.resume l f) s = .next (({ s with mode := .online, staging := none } : State).answered l f.tag (s.owner l) true
            (completeAnswer f.tag)))) ∧
      (s.mode = .draining ∨ s.mode = .quiesced →
        let auto := fun (id : Nat) (x : Deferred) => ({
          id := id, issuer := none, kind := .autoReassign, start := ⟨x.track.cyl, x.track.head, 0⟩, count := 32
          histKey := some x.key } : Request)
        let placed := fun d => (s.drive d).deferred.take (16 - (s.drive d).queue.length)
        let first := fun d : DriveNo =>
          s.nextRequest + ((DriveNo.all.take d.toNat).map (fun k => (placed k).length)).sum
        let drives := PerDrive.ofFn (fun d =>
          let dr := s.drive d
          { dr with
            queue := dr.queue ++ (placed d).mapIdx (fun i x => auto (first d + i) x)
            deferred := dr.deferred.drop (16 - dr.queue.length)
            selEvent := dr.selEvent || !(placed d).isEmpty, patrolEvent := true })
        let u : State := { s with
          mode := .online, staging := none, drives := drives
          nextRequest := s.nextRequest + (DriveNo.all.map (fun k => (placed k).length)).sum }
        exec (.resume l f) s = .next (u.answered l f.tag (s.owner l) true (completeAnswer f.tag)).settle)) ∧
    -- a request leaves its queue
    (∀ (d : DriveNo) (r : Request), r ∈ (s.drive d).queue →
      let dr := s.drive d
      let rest := dr.queue.filter (fun x => x.id != r.id)
      let left : Drive := { dr with
        queue := rest, patrolEvent := dr.patrolEvent || rest.isEmpty
        successor := if dr.successor = some r.id then none else dr.successor }
      (dr.queue.length ≠ 16 ∨ s.mode ≠ .online ∨ dr.deferred = [] → s.leave d r.id = s.updDrive d (fun _ => left)) ∧
      (∀ x later, dr.queue.length = 16 → s.mode = .online → dr.deferred = x :: later →
        let auto : Request := { id := s.nextRequest, issuer := none, kind := .autoReassign,
                                start := ⟨x.track.cyl, x.track.head, 0⟩, count := 32, histKey := some x.key }
        s.leave d r.id = { s.updDrive d (fun _ => { left with
          queue := rest ++ [auto], deferred := later, selEvent := true }) with nextRequest := s.nextRequest + 1 }))

/-- STRING RESET (R20, R172). While no engine is in use and the track buffer is FREE: every queue is empty, chains and
staging are gone, claims and deferred lists clear, an ORIENTING drive is READY and every other keeps its state; each
host's record is clear and its queue holds STRING-RESET with cause RESET; DRAINING is QUIESCED; the answer is
COMPLETE. Tables and string time stay. With engines in use the requests, claims and reports go in the same way; an engine
with no sector under the head is free at once, its drive READY and its copy aborted, while one with a sector under the head
goes on to its sector's end with the copy it carries, and DRAINING stays until then. At that sector's end the engine is free,
its drive READY and its copy aborted; with the last such engine DRAINING becomes QUIESCED, without a MODE notice (R172 steps
2 and 7). -/
def Obligations.StringResetClearsTheWork : Prop :=
  (∀ (l : Link) (f : OrderFrame) (s : State), s.accepts l .stringReset f = true → s.calm = true →
    (∀ e, (s.engine e).service = none ∧ (s.engine e).ending ≠ some .stringReset) → s.copy = none →
    (∀ d, (s.drive d).patrolDue = false) →
    ∃ t, exec (.stringReset l f) s = .next t ∧
    t.mode = (if s.mode = .draining then .quiesced else s.mode) ∧ t.staging = none ∧ t.copy = none ∧
    t.time = s.time ∧ t.settings = s.settings ∧ t.fences = s.fences ∧ t.profile40 = s.profile40 ∧
    t.profile80 = s.profile80 ∧ t.overflow = s.overflow ∧ t.engines = s.engines ∧
    t.history = s.history.map (fun e : HistEntry => { e with sparePending := false }) ∧
    (∀ d, let dr := t.drive d
      dr.queue = [] ∧ dr.claim = ⟨none, [], none⟩ ∧ dr.deferred = [] ∧ dr.lastHost = none ∧ dr.runLength = 0 ∧
      dr.armTarget = none ∧ dr.successor = none ∧ dr.map = (s.drive d).map ∧ dr.pos = (s.drive d).pos ∧
      dr.slot = (s.drive d).slot ∧ dr.cap = (s.drive d).cap ∧ dr.cursor = (s.drive d).cursor ∧
      dr.state = if (s.drive d).state = .orienting then .ready else (s.drive d).state) ∧
    (∀ h, (t.host h).map (·.entry) = (s.host h).map (·.entry)) ∧
    (∀ h x, t.host h = some x → x.queue = [⟨s.time, .stringReset .reset⟩] ∧ x.reserved = 0 ∧ x.lost = 0 ∧
      x.check = { pending := false, code := none, drive := none, logical := none, sector := none, physical := none,
                  time := none, overwrites := 0 }) ∧
    (∀ k, (t.link k).chain = none ∧ (t.link k).up = (s.link k).up) ∧
    (t.link l).offered = some (.frame (.answer (completeAnswer f.tag)))) ∧
  -- with engines in use
  (∀ (l : Link) (f : OrderFrame) (s : State), s.accepts l .stringReset f = true →
    (∀ e, (s.engine e).service = none → (s.engine e).ending ≠ some .stringReset) → (∀ d, (s.drive d).patrolDue = false) →
    let serves := fun (e : EngineNo) (v : Service) => (s.engine e).service = some v
    let streams := fun e : EngineNo => (s.engine e).phase = .streaming
    let finishing := ∃ e v, serves e v ∧ streams e
    ∃ t, exec (.stringReset l f) s = .next t ∧
    (t.resetting = true ↔ finishing) ∧ (finishing → t.mode = s.mode) ∧
    (¬ finishing → t.mode = if s.mode = .draining then .quiesced else s.mode) ∧
    t.staging = none ∧ t.time = s.time ∧ t.settings = s.settings ∧ t.fences = s.fences ∧
    (∀ e v, serves e v → streams e → t.engine e = { s.engine e with cut := true, ending := some .stringReset }) ∧
    (∀ e v, serves e v → ¬ streams e → t.engine e = Engine.idle ∧
      ∀ k, v.link = some k → k ≠ l → ∀ tag writes, (t.link k).exchange ≠ some (.transfer e tag writes)) ∧
    (∀ e, (s.engine e).service = none → t.engine e = s.engine e) ∧
    (∀ c, s.copy = some c →
      ((∃ e v, serves e v ∧ streams e ∧ v.request = c.request) → (∀ e v, serves e v → v.request = c.request → streams e) →
        t.copy = some c) ∧
      ((∀ e v, serves e v → v.request = c.request → ¬ streams e) → t.copy = none ∧
        ∀ x, (s.drive c.drive).map.entry? c.logical = some x →
          (t.drive c.drive).map.entries = (s.drive c.drive).map.entries.map (fun y => if y.primary = c.logical then
            { y with state := if x.state.valid = BitVec.allOnes 32 then .active else .void x.state.valid } else y))) ∧
    (∀ d, let dr := t.drive d
      dr.queue = [] ∧ dr.claim = ⟨none, [], none⟩ ∧ dr.deferred = [] ∧ dr.lastHost = none ∧ dr.runLength = 0 ∧
      dr.armTarget = none ∧ dr.successor = none ∧ dr.cap = (s.drive d).cap ∧ dr.cursor = (s.drive d).cursor ∧
      ((s.drive d).recalDue = false →
        ((s.drive d).state = .orienting → dr.state = .ready) ∧
        ((s.drive d).state = .transferring →
          ((∃ e v, serves e v ∧ v.drive = d ∧ ¬ streams e) → dr.state = .ready) ∧
          ((∀ e v, serves e v → v.drive = d → streams e) → dr.state = .transferring)) ∧
        ((s.drive d).state ≠ .orienting → (s.drive d).state ≠ .transferring → dr.state = (s.drive d).state))) ∧
    (∀ h x, s.host h = some x → ∃ y, t.host h = some y ∧ y.entry = x.entry ∧ y.reserved = 0 ∧
      y.queue.head? = some ⟨s.time, .stringReset .reset⟩ ∧ ∀ q ∈ y.queue, q.isCompletion = false) ∧
    (∀ k, (t.link k).chain = none ∧ (t.link k).up = (s.link k).up) ∧
    ((∀ e v, serves e v → v.link ≠ some l) → (t.link l).offered = some (.frame (.answer (completeAnswer f.tag))))) ∧
  -- the release of an engine that a STRING RESET ends
  ∀ (i : Instr) (e : EngineNo) (v : Service) (k : Nat) (writes : Bool) (s : State),
    ((∃ data check burst, i = .sectorReadEnd e data check burst ∧ writes = false) ∨ (i = .sectorWriteEnd e ∧ writes = true)) →
    let g := s.engine e
    g.service = some v → v.current = some k → g.phase = .streaming → g.writing = writes → g.ending = some .stringReset →
    s.resetting = true → (∀ d, (s.drive d).queue = [] ∧ (s.drive d).patrolDue = false) →
    (∀ c, s.copy = some c → c.request = v.request ∧ v.kind.reassigns = true) →
    let other := ∃ j, j ≠ e ∧ (s.engine j).ending = some .stringReset
    ∃ t, exec i s = .next t ∧ t.engine e = Engine.idle ∧
    (other → t.resetting = true ∧ t.mode = s.mode) ∧
    (¬ other → t.resetting = false ∧ t.mode = if s.mode = .draining then .quiesced else s.mode) ∧
    (∀ h x y, s.host h = some x → t.host h = some y → ∀ q ∈ y.queue, ∀ m, q.record = .mode m → q ∈ x.queue) ∧
    (writes = true ∨ s.mode ≠ .online → t.copy = none ∧ (t.drive v.drive).queue = [] ∧
      ((s.drive v.drive).state = .transferring → (s.drive v.drive).recalDue = false → (t.drive v.drive).state = .ready))

/-- DRIVE OFFLINE (R16, R18): an OFFLINE drive is left as it is. Any other drive is OFFLINE with position and slot
unknown and its timers stopped, STOP sent if it was moving; every request ends but one that an engine is serving, the
host ones with DRIVE-OFFLINE completions in queue order (with the set's size and lowest void sector for a copy that ends), a
copy ends unless that engine carries it, deferred tracks are dropped, SPARE-PENDING is cleared for the AUTO-REASSIGNs and
deferred tracks that go, claim, record and cursor stay, each watching host with class E has an event, and a streaming engine
goes on to the end of its sector with the ending recorded. An engine with no sector under the head drains the checked sectors
of a READ in FLUSHING; else its work ends now, its request's completion following the others (R18, R104).
Which ending stands on a streaming engine, STRING RESET before OFFLINE and OFFLINE before an earlier link event, is
the model's choice (log entry 12); so is the place of the completion of an engine that stops at once, right after the others
and before the DRIVE-STATE and VOID-TRACK notices, where R18 gives no order (log entry 10), and that a request with every
sector done has no failing address (log entry 17); that a request left on a STARTING or INCOMPATIBLE drive ends too, that
SPARE-PENDING goes with the deferred tracks of a drive in any state (log entry 23), and that it is cleared on the entry of the
drive and track, were it made after a clearing of the history (log entry 21). -/
def Obligations.DrivesAreTakenOffline : Prop :=
  ∀ (l : Link) (f : OrderFrame) (s : State), s.accepts l .driveOffline f = true →
    let d := orderDrive f
    ((s.drive d).state = .offline →
      let t := s.answered l f.tag (s.owner l) true (completeAnswer f.tag)
      exec (.driveOffline l f) s = .next t.settle ∧ (s.quiet = true → exec (.driveOffline l f) s = .next t)) ∧
    let dr := s.drive d
    let served := (s.engineOn d).bind (fun e => (s.engine e).service.map (·.request))
    let valid := fun tr : Track => s.validOf d tr
    let ended := fun (i : Issuer) (r : Request) =>
      let whole := r.kind.wholeTrack
      let plain : Completion := ⟨i.tag, d, .driveOffline, none, none, if whole = true then 0 else r.done,
        if whole = true then some r.start else if r.done < r.count then some r.next else none⟩
      match s.copy with
      | some c =>
        if c.drive = d ∧ c.request = r.id then
          { plain with
            done := SectorSet.size (valid c.logical)
            addr := (SectorSet.lowest (~~~(valid c.logical))).map (fun k => r.start.track.addr k) }
        else plain
      | none => plain
    let ends := fun h : HostNo => dr.queue.filterMap (fun r => match r.issuer with
      | some i =>
        if i.host = h ∧ served ≠ some r.id ∧ r.kind ≠ .patrol ∧ r.kind ≠ .autoReassign then
          some (⟨s.time, .completion (ended i r)⟩ : Report)
        else none
      | none => none)
    ((s.drive d).state ≠ .offline → ∃ t, exec (.driveOffline l f) s = .next t ∧
      (t.drive d).state = .offline ∧ (t.drive d).pos = none ∧ (t.drive d).slot = none ∧
      (t.drive d).seekTimer = none ∧ (t.drive d).orientTimer = none ∧ (t.drive d).deferred = [] ∧
      (t.drive d).cap = (s.drive d).cap ∧ (t.drive d).claim = (s.drive d).claim ∧ (t.drive d).cursor = (s.drive d).cursor ∧
      (t.drive d).sent = (s.drive d).sent ++
        (if (s.drive d).state = .moving ∨ (s.drive d).state = .recalibrating then [.stop] else []) ∧
      (∀ h x, s.host h = some x → x.entry.receives .e d = true → ∃ y, t.host h = some y ∧ y.check.pending = true) ∧
      (s.engineOn d = none → (t.drive d).queue = [] ∧ (t.drive d).armTarget = none ∧
        (∀ c, t.copy = some c → c.drive ≠ d)) ∧
      (∀ e v, s.engineOn d = some e → (s.engine e).service = some v → (s.engine e).phase = .streaming →
        (∀ r ∈ (t.drive d).queue, r.id = v.request) ∧
        t.engine e = { s.engine e with
          ending := if (s.engine e).ending = some .stringReset then some .stringReset else some .offline }) ∧
      ((∀ r ∈ dr.queue, r.marked = false) → ∀ h x, s.host h = some x → ∃ y, t.host h = some y ∧ x.queue ++ ends h <+: y.queue) ∧
      (∀ x ∈ t.history, x.drive = d →
        (∃ r ∈ dr.queue, r.kind = .autoReassign ∧ r.histKey = some x.track ∧ served ≠ some r.id ∧
          ∀ c, s.copy = some c → c.drive = d → c.request ≠ r.id) ∨ (∃ y ∈ dr.deferred, y.key = x.track) →
        x.sparePending = false) ∧
      (∀ e v, s.engineOn d = some e → (s.engine e).service = some v → (s.engine e).phase ≠ .streaming →
        (s.engine e).ending ≠ some .stringReset →
        let g := s.engine e
        let drains := v.kind = .read ∧ g.cut = false ∧ ((∃ j x, g.buf1 = .full j x) ∨ ∃ j x, g.buf2 = .full j x)
        (drains → t.engine e = { g with
            ending := some .offline, phase := .flushing, retry := 0, service := some { v with current := none } } ∧
          ∀ r ∈ (t.drive d).queue, r.id = v.request) ∧
        (¬ drains → t.engine e = Engine.idle ∧ (t.drive d).queue = [] ∧ (t.drive d).armTarget = none ∧
          ∀ r i x, r ∈ dr.queue → r.id = v.request → r.kind = v.kind → (dr.queue.map (·.id)).Nodup →
            (∀ r ∈ dr.queue, r.marked = false) → r.kind ≠ .patrol → r.kind ≠ .autoReassign →
            (∀ k c p, (s.link k).chain = some c → r.chain = some p → p.id ≠ c.id) →
            r.issuer = some i → s.host i.host = some x → ∃ y, t.host i.host = some y ∧
            let whole : Completion := ⟨i.tag, d, .driveOffline, none, none, SectorSet.size (valid v.logical),
              (SectorSet.lowest (~~~(valid v.logical))).map (fun k => r.start.track.addr k)⟩
            let part : Completion :=
              ⟨i.tag, d, .driveOffline, none, none, r.done, if r.done < r.count then some r.next else none⟩
            x.queue ++ ends i.host ++ [⟨s.time, .completion (if r.kind = .reassign then whole else part)⟩] <+: y.queue)) ∧
      ((∀ e v, (s.engine e).service = some v → v.link ≠ some l) →
        (t.link l).offered = some (.frame (.answer (completeAnswer f.tag)))))

/-- DRIVE ONLINE (R19, R6, R7, R13): nothing changes unless the drive is FAULTED or OFFLINE. Such a drive is FAULTED
with cause FAULT-LINE under an active fault line; STARTING with SPIN-UP ordered without a record; INCOMPATIBLE for an
unknown type or a record that fails the binding check; otherwise RECALIBRATING with RECALIBRATE ordered and the 120 ms
seek timer running (put off until an engine still at work is released), an unbound map adopting the record. That a request
left in the queue of an OFFLINE drive stays there, in INCOMPATIBLE as well, is the model's choice (log entry 23). An OFFLINE
drive that becomes FAULTED releases an engine still at work at once and aborts its copy (R86 d, R134 a), the request
it was ending taking DRIVE-OFFLINE and any other DRIVE-FAULT: these statuses are the model's choice (log entry 18). -/
def Obligations.DrivesAreBroughtOnline : Prop :=
  ∀ (l : Link) (f : OrderFrame) (line : Bool) (s : State), s.accepts l .driveOnline f = true →
    let d := orderDrive f
    let dr := s.drive d
    let busy := (s.engineOn d).isSome
    ((dr.state ≠ .faulted ∧ dr.state ≠ .offline) →
      let t := s.answered l f.tag (s.owner l) true (completeAnswer f.tag)
      exec (.driveOnline l f line) s = .next t.settle ∧ (s.quiet = true → exec (.driveOnline l f line) s = .next t)) ∧
    (dr.state = .faulted ∨ (dr.state = .offline ∧ line = false) →
      let out : Drive := { dr with orientTimer := none, pos := none, slot := none, seekTarget := none, cause := none, reason := none }
      let incompatible := fun r => { out with state := .incompatible, reason := some r, seekTimer := none }
      let recalibrating := fun m =>
        if busy = true then { out with map := m, state := .recalibrating, recalDue := true }
        else { out with map := m, state := .recalibrating, sent := dr.sent ++ [.recalibrate], seekTimer := some 120 }
      let new : Drive :=
        if line = true then { out with state := .faulted, cause := some .faultLine, seekTimer := none, recalDue := false }
        else match dr.cap with
          | none => { out with state := .starting, sent := dr.sent ++ [.spinUp], seekTimer := none }
          | some ⟨.unknown, _⟩ => incompatible .unknownType
          | some ⟨.d40, n⟩ => match dr.map.bound with
            | none => recalibrating { dr.map with bound := some (n, .d40) }
            | some (k, ty) => if k ≠ n then incompatible .serial else if ty ≠ .d40 then incompatible .type
              else recalibrating dr.map
          | some ⟨.d80, n⟩ => match dr.map.bound with
            | none => recalibrating { dr.map with bound := some (n, .d80) }
            | some (k, ty) => if k ≠ n then incompatible .serial else if ty ≠ .d80 then incompatible .type
              else recalibrating dr.map
      let u := s.updDrive d (fun _ => new)
      let told := if new.state.condition = dr.state.condition then u
        else u.raise .e d ⟨.driveState new.state.condition, d, none, none, none⟩ (.driveState d new.state.condition)
      exec (.driveOnline l f line) s = .next (told.answered l f.tag (s.owner l) true (completeAnswer f.tag)).settle) ∧
    (dr.state = .offline → line = true → ∃ t, exec (.driveOnline l f line) s = .next t ∧
      (t.drive d).state = .faulted ∧ (t.drive d).cause = some .faultLine ∧ (t.drive d).queue = [] ∧
      (t.drive d).armTarget = none ∧ (t.drive d).recalDue = false ∧ (t.drive d).map.bound = dr.map.bound ∧
      (t.drive d).cap = dr.cap ∧ (t.drive d).sent = dr.sent ∧
      (∀ e, s.engineOn d = some e → t.engine e = Engine.idle) ∧ (∀ c, t.copy = some c → c.drive ≠ d) ∧
      (∀ r i, r ∈ dr.queue → (dr.queue.map (·.id)).Nodup → r.issuer = some i → r.marked = false → r.kind ≠ .patrol →
        r.kind ≠ .autoReassign → (s.host i.host).isSome = true → ∃ y c, t.host i.host = some y ∧
        ⟨s.time, .completion c⟩ ∈ y.queue ∧ c.tag = i.tag ∧ c.drive = d ∧
        ((∀ e, (s.engine e).ending ≠ some .offline) → c.status = .driveFault) ∧
        (∀ e v, s.engineOn d = some e → (s.engine e).service = some v → (s.engine e).ending = some .offline →
          v.request = r.id → c.status = .driveOffline)))

/-- A data order accepted outside a chain (R28, R31 b, R65, R153): its request joins the tail of its drive's queue
QUEUED, with the order's range and issuer, one slot of its host's report queue is reserved, and the answer is
ACCEPTED; nothing else changes while the drive is not READY or a request holds its arm. A data order accepted into a
chain (R33): with the indicator and no open chain it opens one as member 1, BOUND; with the indicator it joins the
open chain as the next member, BOUND; without it, it closes the chain, and member 1 becomes QUEUED while the rest stay
BOUND. -/
def Obligations.QueuedOrdersJoinTheirQueue : Prop :=
  (∀ (i : Instr) (l : Link) (k : ReqKind) (form : Form) (c : OrderCode) (f : OrderFrame) (h : HostNo) (s : State),
      dataOrder i = some (l, k, form, c, f) → s.accepts l c f = true → s.owner l = some h → continues f = false →
      (s.link l).chain = none →
      let d := orderDrive f
      let track := k == .reassign
      let r : Request :=
        { id := s.nextRequest, issuer := some ⟨f.tag, h, l⟩, kind := k, form := form
          start := ⟨f.cylinder.toNat, f.head.toNat, if track then 0 else f.sector.toNat⟩
          count := if track then 32 else f.count.toNat
          offset := f.offset.toNat, length := f.length.toNat
          done := 0, chain := none, passes := 0, misses := 0, seekChecks := 0, state := .queued }
      let u : State := { s.updDrive d (fun dr => { dr with queue := dr.queue ++ [r] }) with nextRequest := s.nextRequest + 1 }
      let t := (u.updHost h (fun x => { x with reserved := x.reserved + 1 })).answered l f.tag (some h) false
        { tag := f.tag, result := .accepted }
      exec i s = .next (t.updDrive d (fun dr => { dr with selEvent := true })).settle ∧
        (s.quiet = true → (s.drive d).state ≠ .ready ∨ (s.drive d).holder.isSome = true → exec i s = .next t)) ∧
  (∀ (i : Instr) (l : Link) (k : ReqKind) (form : Form) (code : OrderCode) (f : OrderFrame) (h : HostNo) (s : State),
      dataOrder i = some (l, k, form, code, f) → s.accepts l code f = true → s.owner l = some h →
      let d := orderDrive f
      let r := fun (id pos : Nat) => ({ requestOf k code f ⟨f.tag, h, l⟩ with
        form := form, id := s.nextRequest, state := .bound, chain := some ⟨id, pos⟩ } : Request)
      let placed := fun (queue : List Request) (next : Nat) (open? : Option OpenChain) =>
        ((({ s.updDrive d (fun dr => { dr with queue := queue }) with nextRequest := s.nextRequest + 1, nextChain := next } : State).updHost
          h (fun x => { x with reserved := x.reserved + 1 })).updLink l (fun p => { p with chain := open? })).answered l f.tag
          (some h) false { tag := f.tag, result := .accepted }
      ((s.link l).chain = none → continues f = true →
        let t := placed ((s.drive d).queue ++ [r s.nextChain 1]) (s.nextChain + 1) (some ⟨s.nextChain, d, 1⟩)
        exec i s = .next t.settle ∧ (s.quiet = true → exec i s = .next t)) ∧
      (∀ c, (s.link l).chain = some c → continues f = true →
        let t := placed ((s.drive d).queue ++ [r c.id (c.members + 1)]) s.nextChain (some { c with members := c.members + 1 })
        exec i s = .next t.settle ∧ (s.quiet = true → exec i s = .next t)) ∧
      (∀ c m, (s.link l).chain = some c → continues f = false → (s.drive d).member? c.id 1 = some m →
        let queue := ((s.drive d).queue ++ [r c.id (c.members + 1)]).map (fun x =>
          if x.id = m.id then { x with state := .queued } else x)
        exec i s = .next ((placed queue s.nextChain none).updDrive d (fun dr => { dr with selEvent := true })).settle))

/-- A READ, WRITE, VERIFY or UPDATE accepted for a READY drive with an empty queue is chosen at once (R68, R71): the
drive orients for it when its arm stands on the physical track (R77); otherwise a SEEK is issued, the target recorded,
the drive MOVING with the 120 ms timer running (R10). -/
def Obligations.ReadyDrivesStartAtOnce : Prop :=
  ∀ (i : Instr) (l : Link) (k : ReqKind) (form : Form) (c : OrderCode) (f : OrderFrame) (h : HostNo) (s : State),
    dataOrder i = some (l, k, form, c, f) → k ≠ .reassign → s.accepts l c f = true → s.owner l = some h →
    continues f = false → (s.link l).chain = none → s.quiet = true →
    let d := orderDrive f
    let tr : Track := ⟨f.cylinder.toNat, f.head.toNat⟩
    (s.drive d).state = .ready → (s.drive d).queue = [] → (s.drive d).map.isCopying tr = false →
    (∀ x, s.copy = some x → x.request ≠ s.nextRequest) →
    let target := s.translate d tr
    let here := (s.drive d).pos = some target
    let r : Request := { requestOf k c f ⟨f.tag, h, l⟩ with id := s.nextRequest, form := form }
    let started := fun dr : Drive =>
      let dr := { dr with
        armTarget := some target, successor := none, lastHost := some h
        runLength := if dr.lastHost = some h then saturate 15 (dr.runLength + 1) else 1 }
      if here then { dr with state := .orienting, pointMet := false, queue := [{ r with state := .orienting }] }
      else { dr with
        state := .moving, queue := [{ r with state := .positioning }], sent := dr.sent ++ [.seek target]
        seekTarget := some target, seekTimer := some 120 }
    let u : State := { s.updDrive d started with nextRequest := s.nextRequest + 1 }
    (s.drive d).cause = none → (s.drive d).reason = none →
    exec i s = .next ((u.updHost h (fun x => { x with reserved := x.reserved + 1 })).answered l f.tag (some h) false
      { tag := f.tag, result := .accepted })

/-- A selection (R69 to R71). It is made on a READY drive with no arm holder, and only clears its event on any other.
QUEUED requests whose next track is COPYING become HELD, but for the copy's own. Eligible are then the QUEUED requests
of reachable hosts and the internal ones, a reassignment while the track buffer is FREE or its own, a PATROL when
nothing else is. Of these the choice takes the released successor; else the oldest whose passes have reached P; else,
with the run length at K and another host's request eligible, the least score among those not of the last host; else
the least score of all, the older at equal scores. The eligible ones not chosen gain a pass up to P, the last host and
its run length follow, the successor is none, and the chosen request goes to its next track or begins its copy. A
PATROL that meets a copy is skipped: it leaves the queue, the cursor advances, the patrol timer restarts, and the selection
goes on without it (R146 b). That a pass count above P counts as P and becomes P with its next pass, and that a drive due while
its PATROL waited is checked at the leaving, is the model's choice (log entry 19). -/
def Obligations.SelectionsChooseByRule : Prop :=
  (∀ (d : DriveNo) (el : List Request) (s : State),
    let dr := s.drive d
    let host := fun r : Request => r.issuer.map (·.host)
    let other := fun r : Request => host r = none ∨ host r ≠ dr.lastHost
    let turns := 0 < s.settings.rotation ∧ s.settings.rotation ≤ dr.runLength ∧
      ∃ x ∈ el, host x ≠ none ∧ host x ≠ dr.lastHost
    (el = [] → s.choose d el = none) ∧ (el ≠ [] → ∃ r ∈ el, s.choose d el = some r) ∧
    (∀ before r after, el = before ++ r :: after →
      (dr.successor = some r.id → (∀ x ∈ before, x.id ≠ r.id) → s.choose d el = some r) ∧
      ((∀ x ∈ el, dr.successor ≠ some x.id) →
        (s.settings.forced ≤ r.passes → (∀ x ∈ before, x.passes < s.settings.forced) → s.choose d el = some r) ∧
        ((∀ x ∈ el, x.passes < s.settings.forced) → (turns → other r) →
          (∀ x ∈ before, (turns → other x) → s.score d r < s.score d x) →
          (∀ x ∈ after, (turns → other x) → s.score d r ≤ s.score d x) → s.choose d el = some r)))) ∧
  ∀ (d : DriveNo) (s : State),
    let dr := s.drive d
    let own := fun r : Request => s.copy.any (fun c => c.request == r.id)
    let meets := fun r : Request => r.state == .queued && dr.map.isCopying r.next.track && !own r
    let queue := dr.queue.map (fun r => if meets r then { r with state := .held } else r)
    let may := fun r : Request => r.state == .queued &&
      (match r.issuer with | some i => s.reachable i.host | none => true) && (!r.kind.reassigns || s.copy.isNone || own r)
    let el := queue.filter (fun r => may r && (r.kind != .patrol || queue.all (fun x => !may x || x.kind == .patrol)))
    (dr.state ≠ .ready ∨ dr.holder.isSome = true → s.select d = s.updDrive d (fun dr => { dr with selEvent := false })) ∧
    (dr.state = .ready → dr.holder = none → (∀ r ∈ dr.queue, r.kind = .patrol → meets r = false) →
      (s.choose d el = none →
        s.select d = s.updDrive d (fun dr => { dr with selEvent := false, queue := queue, successor := none })) ∧
      (∀ r, s.choose d el = some r →
        let u := s.updDrive d (fun dr => { dr with
          selEvent := false, successor := none
          queue := queue.map (fun x => if x.id ≠ r.id ∧ x.id ∈ el.map (·.id) then
            { x with passes := if x.passes < s.settings.forced then x.passes + 1 else s.settings.forced } else x)
          lastHost := match r.issuer with | some i => some i.host | none => dr.lastHost
          runLength := match r.issuer with
            | none => dr.runLength
            | some i => if dr.lastHost = some i.host then (if dr.runLength < 15 then dr.runLength + 1 else 15) else 1 })
        (r.kind.reassigns = false ∨ own r = true → s.select d = u.position d r.id (s.requestTrack d r)) ∧
        (r.kind.reassigns = true → own r = false → s.select d = u.beginCopy d r))) ∧
    (∀ r ∈ dr.queue, dr.state = .ready → dr.holder = none → r.kind = .patrol → meets r = true → (dr.queue.map (·.id)).Nodup →
      (∀ x ∈ dr.queue, x.kind = .patrol → meets x = true → x.id = r.id) → dr.queue.length < 16 ∨ dr.deferred = [] →
      let rest := dr.queue.filter (fun x => x.id != r.id)
      let skipped := s.updDrive d (fun dr => { dr with
        queue := rest, cursor := nextCursor dr.type dr.cursor
        patrolTimer := if s.settings.patrolInterval = 0 then .stopped else .running (s.settings.patrolInterval * 100)
        patrolEvent := (dr.patrolEvent || rest.isEmpty) && dr.patrolDue
        successor := if dr.successor = some r.id then none else dr.successor })
      s.select d = skipped.select d)

/-- A REASSIGN accepted for a READY drive with an empty queue and the track buffer FREE takes the buffer (R122, R124, R125).
NEW of a track without an entry: the lowest-numbered FREE alternate is ASSIGNED to a new COPYING entry of origin HOST with an
empty set, every sector is to be read, and the arm goes to the source, the primary track. NEW of an entry ACTIVE or VOID: the
entry takes the new alternate, retains the former one, is COPYING with an empty set, origin HOST, its generation one higher
up to 15; the sectors valid there are to be read from the former alternate. With no alternate FREE it ends NO-ALTERNATE. FILL
of a VOID entry: it is COPYING with its set, its void sectors are to be read from the primary track, and the sectors done are
the set's size; FILL of any other track ends STATE. A chain member that ends NO-ALTERNATE or STATE cancels the later members
(R35 b, R132). NEW of a VOID entry with an empty set, every request's number being one already given (`State.RequestLaw`,
kept by O9), ends at once, REASSIGNED with 32 void sectors: the entry is VOID on the new alternate with an empty set, and the
alternates it had are RETIRED (R126 b). An AUTO-REASSIGN begins as a NEW of origin AUTO; with no alternate FREE it leaves the
queue without a report, and SPARE-PENDING is cleared on its history entry (R136 b, c), which is found by drive and track,
were it made after a clearing of the history: the model's choice (log entry 21). -/
def Obligations.ReassignmentsBeginAtTheirChoice : Prop :=
  (∀ (l : Link) (f : OrderFrame) (h : HostNo) (s : State), s.accepts l .reassign f = true → s.owner l = some h →
      continues f = false → (s.link l).chain = none → s.quiet = true → s.copy = none →
      let d := orderDrive f
      let tr : Track := ⟨f.cylinder.toNat, f.head.toNat⟩
      (s.drive d).state = .ready → (s.drive d).queue = [] → (s.drive d).map.entry? tr = none →
      ((∀ a, (s.drive d).map.lowestFree = some a → ∃ t, exec (.reassignNew l f) s = .next t ∧
        t.copy = some ⟨s.nextRequest, .reassign, some ⟨f.tag, h, l⟩, .new, d, tr, tr, a, BitVec.allOnes 32, 0, 0, .read, []⟩ ∧
        (t.drive d).map.pool = (s.drive d).map.pool.set a .assigned ∧
        (t.drive d).map.entries = insertEntry ⟨tr, a, .copying 0, [], .host, 0⟩ (s.drive d).map.entries ∧
        (t.drive d).armTarget = some tr ∧ (t.drive d).queue.map (·.id) = [s.nextRequest] ∧
        (t.drive d).state = if (s.drive d).pos = some tr then .orienting else .moving) ∧
      ((s.drive d).map.lowestFree = none → (s.drive d).patrolDue = false → ∃ t, exec (.reassignNew l f) s = .next t ∧
        t.copy = none ∧ (t.drive d).map = (s.drive d).map ∧ (t.drive d).state = .ready ∧
        (∀ r ∈ (t.drive d).queue, r.id ≠ s.nextRequest) ∧
        ∃ y, t.host h = some y ∧ y.check.pending = true ∧
          (∃ q ∈ y.queue, q.time = s.time ∧ q.record = .completion ⟨f.tag, d, .noAlternate, none, none, 0, some (tr.addr 0)⟩)))) ∧
  (∀ (d : DriveNo) (r : Request) (s : State), r.form = .new →
    let dr := s.drive d
    let tr := r.start.track
    let origin : Origin := if r.kind = .reassign then .host else .auto
    let begun := fun (source : Track) (a : Nat) (toRead : SectorSet) (entries : List Entry) =>
      s.beginCopy d r = ({ s.updDrive d (fun dr => { dr with
          map := { dr.map with entries := entries, pool := dr.map.pool.set a .assigned } }) with
        copy := some ⟨r.id, r.kind, r.issuer, .new, d, tr, source, a, toRead, 0, 0, .read, []⟩ } : State).position d r.id source
    (∀ a, dr.map.lowestFree = some a →
      (dr.map.entry? tr = none →
        begun tr a (BitVec.allOnes 32) (insertEntry ⟨tr, a, .copying 0, [], origin, 0⟩ dr.map.entries)) ∧
      (∀ e, dr.map.entry? tr = some e → e.state.valid ≠ 0 →
        begun (altTrack dr.type e.alt) a e.state.valid (dr.map.entries.map (fun x => if x.primary = tr then { x with
          alt := a, state := .copying 0, retained := x.retained ++ [x.alt], origin := origin
          generation := if x.generation < 15 then x.generation + 1 else 15 } else x)))) ∧
    (r.kind = .autoReassign → dr.map.lowestFree = none → r.id < s.nextRequest →
      let t := s.beginCopy d r
      t.copy = s.copy ∧ t.hosts = s.hosts ∧ (t.drive d).map = dr.map ∧ (t.drive d).armTarget = none ∧
      (t.drive d).selEvent = true ∧ (∀ x ∈ (t.drive d).queue, x.id ≠ r.id) ∧
      (∀ x ∈ dr.queue, x.id ≠ r.id → x ∈ (t.drive d).queue) ∧
      t.history = s.history.map (fun x =>
        if x.drive = d ∧ r.histKey = some x.track then { x with sparePending := false } else x))) ∧
  (∀ (d : DriveNo) (r : Request) (i : Issuer) (k : ChainPos) (s : State), r.kind = .reassign → r.issuer = some i →
    let ended := fun st => s.ChainCancelled (s.beginCopy d r) d r k ⟨i.tag, d, st, none, none, 0, some r.next⟩
    (r.form = .new → (s.drive d).map.lowestFree = none → ended .noAlternate) ∧
    (r.form = .fill → (∀ e v, (s.drive d).map.entry? r.start.track = some e → e.state ≠ .void v) → ended .state)) ∧
  ∀ (l : Link) (f : OrderFrame) (h : HostNo) (s : State), s.accepts l .reassign f = true → s.owner l = some h →
    continues f = false → (s.link l).chain = none → s.quiet = true → s.copy = none →
    let d := orderDrive f
    let dr := s.drive d
    let tr : Track := ⟨f.cylinder.toNat, f.head.toNat⟩
    let changed := fun (g : Entry → Entry) => dr.map.entries.map (fun x => if x.primary = tr then g x else x)
    let arrives := fun (t : State) (tk : Track) => (t.drive d).armTarget = some tk ∧
      (t.drive d).queue.map (·.id) = [s.nextRequest] ∧ (t.drive d).state = if dr.pos = some tk then .orienting else .moving
    dr.state = .ready → dr.queue = [] →
    (∀ e a, dr.map.entry? tr = some e → dr.map.lowestFree = some a → (∀ v, e.state ≠ .copying v) →
      e.state.valid ≠ 0 → ∃ t, exec (.reassignNew l f) s = .next t ∧
      let source := altTrack dr.type e.alt
      t.copy = some ⟨s.nextRequest, .reassign, some ⟨f.tag, h, l⟩, .new, d, tr, source, a, e.state.valid, 0, 0, .read, []⟩ ∧
      (t.drive d).map.pool = dr.map.pool.set a .assigned ∧
      (t.drive d).map.entries = changed (fun x => { x with
        alt := a, state := .copying 0, retained := x.retained ++ [x.alt], origin := .host
        generation := if x.generation < 15 then x.generation + 1 else 15 }) ∧ arrives t source) ∧
    (∀ e a, s.RequestLaw → dr.map.entry? tr = some e → dr.map.lowestFree = some a → e.state = .void 0 → dr.patrolDue = false →
      ∃ t, exec (.reassignNew l f) s = .next t ∧
      (∀ c, t.copy = some c → c.request ≠ s.nextRequest) ∧ (t.drive d).queue = [] ∧ (t.drive d).state = .ready ∧
      (t.drive d).map.entries = changed (fun x => { x with
        alt := a, state := .void 0, retained := [], origin := .host
        generation := if x.generation < 15 then x.generation + 1 else 15 }) ∧
      (∀ b, (t.drive d).map.altState b =
        if b = e.alt ∨ b ∈ e.retained then .retired else if b = a then .assigned else dr.map.altState b) ∧
      (∀ x ∈ t.history, x.drive = d → x.track ≠ altTrack dr.type e.alt) ∧
      ∃ y, t.host h = some y ∧
        ⟨s.time, .completion ⟨f.tag, d, .reassigned, none, some 32, 0, some (tr.addr 0)⟩⟩ ∈ y.queue) ∧
    (∀ e, dr.map.entry? tr = some e → (∀ v, e.state ≠ .copying v) → dr.map.lowestFree = none → dr.patrolDue = false →
      ∃ t, exec (.reassignNew l f) s = .next t ∧ t.copy = none ∧ (t.drive d).map = dr.map ∧ (t.drive d).state = .ready ∧
      (t.drive d).queue = [] ∧ ∃ y, t.host h = some y ∧ y.check.pending = true ∧
        ⟨s.time, .completion ⟨f.tag, d, .noAlternate, none, none, 0, some (tr.addr 0)⟩⟩ ∈ y.queue) ∧
    (∀ e v, dr.map.entry? tr = some e → e.state = .void v → ∃ t, exec (.reassignFill l f) s = .next t ∧
      t.copy = some ⟨s.nextRequest, .reassign, some ⟨f.tag, h, l⟩, .fill, d, tr, tr, e.alt, ~~~v, 0, 0, .read, []⟩ ∧
      (t.drive d).map = { dr.map with entries := changed (fun x => { x with state := .copying v }) } ∧
      (t.drive d).queue.map (·.done) = [SectorSet.size v] ∧ arrives t tr) ∧
    ((∀ e v, dr.map.entry? tr = some e → e.state ≠ .void v ∧ e.state ≠ .copying v) → dr.patrolDue = false →
      ∃ t, exec (.reassignFill l f) s = .next t ∧
      t.copy = none ∧ (t.drive d).map = dr.map ∧ (t.drive d).state = .ready ∧
      (∀ r ∈ (t.drive d).queue, r.id ≠ s.nextRequest) ∧
      ∃ y, t.host h = some y ∧ y.check.pending = true ∧
        (∃ q ∈ y.queue, q.time = s.time ∧ q.record = .completion ⟨f.tag, d, .state, none, none, 0, some (tr.addr 0)⟩))

/-- The end of a copy (R131, R132, R133). The entry is ACTIVE when its set is full and VOID with its set otherwise; a NEW
retires the retained alternates; the history entry of the source is gone; every other AUTO-REASSIGN of the track leaves the
queue and the deferred list; the buffer is FREE, with a selection event where a reassignment waits; HELD requests for the
track are QUEUED; a REASSIGN ends REASSIGNED with the set's size, the void count and the lowest void sector, one marked for
removal giving up its reservation without a completion (R41 f); a chain member so cancels the later members (R132 b); the arm
is free. Hosts that watch the drive with class S are sent SPARED, then VOID-TRACK with cause COPY-END when the entry is VOID. -/
def Obligations.CopiesEnd : Prop :=
  ∀ (c : CopyRecord) (r : Request) (e : Entry) (v : SectorSet) (s : State),
    let d := c.drive
    let dr := s.drive d
    dr.map.entry? c.logical = some e → e.state = .copying v → (dr.map.entries.map (·.primary)).Nodup →
    r ∈ dr.queue → r.id = c.request → r.id < s.nextRequest → (dr.queue.map (·.id)).Nodup →
    let t := s.endCopy c r
    let full := v = BitVec.allOnes 32
    let voids := 32 - SectorSet.size v
    let later := match r.chain with
      | some k => dr.laterMembers k
      | none => []
    let st : EntryState := if v = BitVec.allOnes 32 then .active else .void v
    t.copy = none ∧ (t.drive d).map.bound = dr.map.bound ∧
    (t.drive d).map.entries = dr.map.entries.map (fun x => if x.primary = c.logical then
      { x with state := st, retained := if c.form = .new then [] else x.retained } else x) ∧
    (t.drive d).map.pool.length = dr.map.pool.length ∧
    (∀ a < dr.map.pool.length, (t.drive d).map.altState a =
      if c.form = .new ∧ a ∈ e.retained then .retired else dr.map.altState a) ∧
    t.history = s.history.filter (fun x => !(x.drive == d && x.track == c.source)) ∧
    (∀ x ∈ (t.drive d).queue, x.id ≠ c.request ∧ (x.kind = .autoReassign → x.start.track ≠ c.logical)) ∧
    (∀ x ∈ (t.drive d).deferred, x.track ≠ c.logical) ∧
    (∀ k, r.kind = .reassign → r.chain = some k → s.ChainCancelled t d r k
      ⟨(match r.issuer with | some i => i.tag | none => 0), d, .reassigned, none, some voids, SectorSet.size v,
        (SectorSet.lowest (~~~v)).map (fun k => r.start.track.addr k)⟩) ∧
    (∀ x ∈ dr.queue, x.id ≠ c.request → (x.kind = .autoReassign → x.start.track ≠ c.logical) →
      (r.kind = .reassign → r.marked = false → ∀ k p, r.chain = some k → x.chain = some ⟨k.id, p⟩ → p ≤ k.pos ∨ 8 < p) →
      (if x.state = .held ∧ x.next.track = c.logical then { x with state := .queued } else x) ∈ (t.drive d).queue) ∧
    (∀ k, k ≠ d → (s.drive k).queue.any (fun x => x.kind.reassigns && x.state == .queued) = true →
      (t.drive k).selEvent = true) ∧
    (t.drive d).armTarget = none ∧
    (dr.state = .orienting ∨ dr.state = .transferring → (t.drive d).state = .ready ∧ (t.drive d).selEvent = true) ∧
    (∀ i, r.kind = .reassign → r.issuer = some i → r.marked = false → (s.host i.host).isSome = true →
      ∃ y, t.host i.host = some y ∧ ⟨s.time, .completion ⟨i.tag, d, .reassigned, none, some voids, SectorSet.size v,
        (SectorSet.lowest (~~~v)).map (fun k => r.start.track.addr k)⟩⟩ ∈ y.queue) ∧
    (∀ i x, r.kind = .reassign → r.issuer = some i → r.marked = true → s.host i.host = some x →
      ∃ y, t.host i.host = some y ∧ y.reserved = x.reserved - 1 ∧ ∀ q ∈ y.queue, q.isCompletion = true → q ∈ x.queue) ∧
    (∀ h x, s.host h = some x → x.entry.receives .s d = true → ∃ y, t.host h = some y ∧ y.check.pending = true ∧
      (full → y.check.code = some (.spared c.form)) ∧ (¬ full → y.check.code = some (.voidTrack .copyEnd)) ∧
      (x.entry.inhibit = false → x.reserved + x.queue.length + later.length + 3 ≤ 24 →
        let spared : Report := ⟨s.time, .spared d c.logical c.form e.alt e.origin e.generation voids⟩
        let void : Report := ⟨s.time, .voidTrack d c.logical e.alt voids .copyEnd⟩
        (full → ∃ before, y.queue = before ++ [spared]) ∧ (¬ full → ∃ before, y.queue = before ++ [spared, void])))

/-- The abort of a copy (R134, R135). The entry is ACTIVE when its set is full and VOID with its set otherwise, its alternates
staying as they are; an AUTO-REASSIGN's history entry, found by drive and track by the model's choice (log entry 21), loses
SPARE-PENDING; the buffer is FREE, with a selection event where a reassignment waits. By FAULT, or the third seek check, the
REASSIGN ends DRIVE-FAULT or SEEK-CHECK with the set's size and the lowest void sector, and hosts that watch the drive with
class S and have room are sent VOID-TRACK with cause ABORT when the entry is VOID; after the seek check HELD requests for the
track are QUEUED. By STRING RESET with no engine in use each watching host's queue holds STRING-RESET, then the VOID-TRACK. -/
def Obligations.CopiesAreAborted : Prop :=
  (∀ (c : CopyRecord) (e : Entry) (v : SectorSet) (s : State),
    let d := c.drive
    (s.drive d).map.entry? c.logical = some e → e.state.valid = v →
    let t := (s.abortCopy c).1
    t.copy = none ∧
    (t.drive d).map = { (s.drive d).map with entries := (s.drive d).map.entries.map (fun x => if x.primary = c.logical then
      { x with state := if v = BitVec.allOnes 32 then .active else .void v } else x) } ∧
    t.history = (if c.kind = .autoReassign then s.history.map (fun x =>
      if x.drive = d ∧ x.track = c.source then { x with sparePending := false } else x) else s.history) ∧
    (∀ k, (s.drive k).queue.any (fun x => x.kind.reassigns && x.state == .queued) = true → (t.drive k).selEvent = true) ∧
    (∀ k, (t.drive k).queue = (s.drive k).queue) ∧ t.hosts = s.hosts ∧ t.engines = s.engines ∧
    (s.abortCopy c).2 = if v = BitVec.allOnes 32 then none else some (c.logical, e.alt, 32 - SectorSet.size v)) ∧
  ∀ (i : Instr) (d : DriveNo) (st : Status) (c : CopyRecord) (r : Request) (e : Entry) (v : SectorSet) (s : State),
    let dr := s.drive d
    s.ReportLaw → s.copy = some c → c.drive = d → dr.map.entry? c.logical = some e → e.state = .copying v →
    let settled := dr.map.entries.map (fun x => if x.primary = c.logical then
      { x with state := if v = BitVec.allOnes 32 then .active else .void v } else x)
    let void : Report := ⟨s.time, .voidTrack d c.logical e.alt (32 - SectorSet.size v) .abort⟩
    (r ∈ dr.queue → r.id = c.request → r.kind = .reassign → r.marked = false →
      ((i = .fault d ∧ st = .driveFault ∧ dr.state ≠ .absent ∧ dr.state ≠ .offline ∧ dr.state ≠ .faulted ∧
          ∀ e, (s.engine e).ending ≠ some .offline) ∨
        (i = .seekCheck d ∧ st = .seekCheck ∧ dr.state = .moving ∧ dr.holder = some r ∧ 3 ≤ r.seekChecks + 1)) →
      ∃ t, exec i s = .next t ∧ (∀ x, t.copy = some x → x.request ≠ c.request) ∧ (t.drive d).map.entries = settled ∧
        (t.drive d).map.pool = dr.map.pool ∧ (∀ x ∈ (t.drive d).queue, x.id ≠ c.request) ∧
        (i = .seekCheck d → r.chain = none → ∀ x ∈ dr.queue, x.id ≠ r.id → x.state = .held → x.next.track = c.logical →
          { x with state := .queued } ∈ (t.drive d).queue) ∧
        (∀ j, r.issuer = some j → ∃ y, t.host j.host = some y ∧ ⟨s.time, .completion ⟨j.tag, d, st, none, none,
          SectorSet.size v, (SectorSet.lowest (~~~v)).map (fun k => r.start.track.addr k)⟩⟩ ∈ y.queue) ∧
        (∀ h x, v ≠ BitVec.allOnes 32 → s.host h = some x → x.entry.receives .s d = true → x.entry.inhibit = false →
          x.reserved + x.queue.length + 2 ≤ 24 → ∃ y, t.host h = some y ∧ void ∈ y.queue)) ∧
    (∀ l f, s.accepts l .stringReset f = true → (∀ e, (s.engine e).service = none ∧ (s.engine e).ending = none) →
      (∀ k, (s.drive k).patrolDue = false) → ∃ t, exec (.stringReset l f) s = .next t ∧
      t.copy = none ∧ (t.drive d).map.entries = settled ∧ (t.drive d).map.pool = dr.map.pool ∧
      ∀ h x, s.host h = some x → ∃ y, t.host h = some y ∧ y.queue = ⟨s.time, .stringReset .reset⟩ ::
        (if v ≠ BitVec.allOnes 32 ∧ x.entry.receives .s d = true ∧ x.entry.inhibit = false then [void] else []))

/-- LINK_UP (R40, R45): nothing changes on a link that is up. A DOWN link becomes IDLE with nothing on it; its host, if it
was cut off, is reachable again: the orphan timers of the drives it holds stop and its QUEUED requests raise selections.
LINK_DOWN (R39, R45): the port is DOWN and empty, its open chain and the staging area it owns are discarded, a streaming
transfer ends LINK-LOST at the sector's end and one with no sector under the head at once, its request's completion placed
(that one with every sector done has no failing address is the model's choice, log entry 17), report queues keep their
frames, and the orphan timers start on the drives held by a host that this cuts off; a host that keeps another link keeps its
claims without one. That LINK_UP on a link that is up and LINK_DOWN on one that is down change nothing is the model's choice
(log entry 13). -/
def Obligations.LinkSignalsAreFollowed : Prop :=
  ∀ (l : Link) (s : State),
    ((s.link l).up = true → exec (.linkUp l) s = .next s) ∧
    ((s.link l).up = false → exec (.linkDown l) s = .next s) ∧
    ((s.link l).up = false → (∀ h, s.owner l = some h → s.reachable h = true) →
      exec (.linkUp l) s = .next (s.updLink l (fun _ => ⟨true, none, none, none, none, none, [], []⟩)).settle) ∧
    (∀ h, (s.link l).up = false → s.owner l = some h → s.reachable h = false →
      let back := fun dr : Drive => { dr with
        claim := if dr.claim.holder = some h then { dr.claim with orphan := none } else dr.claim
        selEvent := dr.selEvent || dr.queue.any (fun r => r.state == .queued && r.host == some h) }
      let u := s.updLink l (fun _ => ⟨true, none, none, none, none, none, [], []⟩)
      exec (.linkUp l) s = .next ({ u with drives := s.drives.map back } : State).settle) ∧
    ((s.link l).up = true → ∃ t, exec (.linkDown l) s = .next t ∧
      t.link l = ⟨false, none, none, none, none, none, [], []⟩ ∧
      (∀ c, (s.link l).chain = some c → ∀ r ∈ (t.drive c.drive).queue, ∀ x, r.chain = some x → x.id ≠ c.id) ∧
      (∀ g, s.staging = some g → t.staging = if g.owner = l then none else some g) ∧
      (∀ h x, s.host h = some x → ∃ y, t.host h = some y ∧ y.entry = x.entry ∧ x.queue <+: y.queue) ∧
      (∀ d h, (s.drive d).claim.holder = some h →
        (s.owner l = some h ∧ (∀ x k, s.host h = some x → x.entry.owns k = true → (s.link k).up = true → k = l) →
          (t.drive d).claim = { (s.drive d).claim with
            orphan := if s.settings.orphanLimit = 0 then none else some (s.settings.orphanLimit * 1000) }) ∧
        (∀ x k, s.owner l = some h → s.host h = some x → k ≠ l → x.entry.owns k = true → (s.link k).up = true →
          (t.drive d).claim = (s.drive d).claim) ∧
        (s.owner l ≠ some h → (t.drive d).claim = (s.drive d).claim)) ∧
      (∀ e tag writes v, (s.link l).exchange = some (.transfer e tag writes) → (s.engine e).service = some v →
        (s.engine e).phase = .streaming → (s.engine e).ending = none →
        t.engine e = { s.engine e with
          cut := true, service := some { v with link := none }, ending := some (.event .linkLost) }) ∧
      (∀ e tag writes v r i, (s.link l).exchange = some (.transfer e tag writes) → (s.engine e).service = some v →
        (s.engine e).phase ≠ .streaming → (s.engine e).ending = none → s.ReportLaw →
        (s.drive v.drive).request? v.request = some r → (s.link l).chain = none → r.kind.wholeTrack = false →
        r.marked = false → r.issuer = some i → t.engine e = Engine.idle ∧ (∀ y ∈ (t.drive v.drive).queue, y.id ≠ r.id) ∧
        ∃ y, t.host i.host = some y ∧ ⟨s.time, .completion ⟨i.tag, v.drive, .linkLost, none, none, r.done,
          if r.done < r.count then some r.next else none⟩⟩ ∈ y.queue))

/-- RESET on a link that is up (R41): its open chain, its LINK-BUSY answers and the staging area it owns are gone; an
order or report exchange ends, a report's frame keeping its place; a streaming transfer ends LINK-RESET at its
sector's end; and the requests accepted on the link leave their queues without completions. In the state `u` before anything
is settled, each of those requests is gone, but for one marked for removal: that of a streaming engine, whose transfer is cut
and ends at the sector boundary, and that of the copy in progress, which goes on (R41 d, f). No host has a completion or an
event for it; its reservation is freed, a GAP following when notices were lost (R154, R156), and its tag is out of use. An
engine that was not streaming for it is free; a drive that was positioning for it has no arm target, one orienting is READY. A
transfer on the link of a request accepted on another one, with no sector under the head, ends now with LINK-RESET (R41 e).
That the LINK-BUSY answers still due are dropped is the model's choice (log entry 15), and so is it that a GAP comes before
the LINK-RESET (log entry 12) and that a request with every sector done has no failing address (log entry 17). -/
def Obligations.ResetClearsTheLinksWork : Prop :=
  ∀ (l : Link) (s : State), (s.link l).up = true → ∃ t u : State, exec (.reset l) s = .next t ∧ t = u.settle ∧
    (t.link l).up = true ∧ (t.link l).chain = none ∧ (t.link l).busyTags = [] ∧
    (∀ g, s.staging = some g → t.staging = if g.owner = l then none else some g) ∧
    (∀ h x, s.host h = some x → ∃ y, t.host h = some y ∧ y.entry = x.entry ∧ x.queue <+: y.queue) ∧
    (∀ d, (t.drive d).claim = (s.drive d).claim ∧ (t.drive d).cap = (s.drive d).cap) ∧
    t.fences = s.fences ∧ t.settings = s.settings ∧ t.time = s.time ∧
    ((∀ e tag writes, (s.link l).exchange ≠ some (.transfer e tag writes)) →
      ∀ x, (t.link l).exchange = some x → ∃ h, x = .report h) ∧
    (∀ e tag writes v, (s.link l).exchange = some (.transfer e tag writes) → (s.engine e).service = some v →
      v.link = some l → (s.engine e).phase = .streaming → (s.engine e).ending = none → (∀ k v, (s.engine k).service = some v → v.link = some l → k = e) →
      (t.engine e).cut = true ∧ (t.engine e).ending = some (.event .linkReset) ∧
        (t.link l).exchange = some (.transfer e tag writes) ∧ (t.link l).offered = none) ∧
    (s.copy = none → (∀ d, ∀ r ∈ (s.drive d).queue, r.cameOn l = true → r.state ≠ .transferring) →
      ∀ d, ∀ r ∈ (t.drive d).queue, r.cameOn l = false) ∧
    -- the requests accepted on the link
    (let own := fun r : Request => s.copy.any (fun c => c.request == r.id)
      let streams := fun r : Request => EngineNo.all.any (fun e =>
        (s.engine e).phase == .streaming && (s.engine e).service.any (fun v => v.request == r.id))
      let out := fun r : Request => r.cameOn l && !own r && (r.state != .transferring || !streams r)
      let gone := fun h : HostNo => (DriveNo.all.map (fun d =>
        ((s.drive d).queue.filter (fun r => out r && r.issuer.any (fun i => i.host == h))).length)).sum
      let serves := fun (d : DriveNo) (r : Request) (e : EngineNo) => s.engineOf r.id = some e ∧
        ∀ j v, (s.engine j).service = some v → v.request = r.id → j = e ∧ v.drive = d
      s.ReportLaw → (∀ d, (s.drive d).deferred = []) → (∀ e, (s.engine e).ending ≠ some .stringReset) →
      (∀ c, (s.link l).chain = some c → ∀ r ∈ (s.drive c.drive).queue, ∀ p, r.chain = some p → p.id = c.id →
        r.cameOn l = true ∧ r.state = .bound ∧ own r = false) →
      (∀ d, ∀ r ∈ (s.drive d).queue, r.cameOn l = true → own r = false → r.state = .transferring → ∃ e, serves d r e) →
      (∀ e tag writes, (s.link l).exchange = some (.transfer e tag writes) → (s.engine e).phase = .streaming ∨
        ∃ v r, (s.engine e).service = some v ∧ v.link = some l ∧ r ∈ (s.drive v.drive).queue ∧ r.id = v.request ∧
          r.cameOn l = true ∧ own r = false ∧ r.state = .transferring) →
      u.copy = s.copy ∧
      (∀ d, (u.drive d).queue = ((s.drive d).queue.filter (fun r => !out r)).map (fun r =>
        if r.cameOn l = true then { r with marked := true } else r)) ∧
      (∀ h x, s.host h = some x → ∃ y, u.host h = some y ∧ y.entry = x.entry ∧ y.check = x.check ∧
        y.reserved = x.reserved - gone h ∧
        y.queue = x.queue ++ (if 0 < gone h ∧ 0 < x.lost then [⟨s.time, .gap x.lost⟩] else [])) ∧
      (∀ d r e, r ∈ (s.drive d).queue → r.cameOn l = true → own r = false → r.state = .transferring → serves d r e →
        ((s.engine e).phase = .streaming → (u.engine e).cut = true ∧ ((s.engine e).ending = none →
          u.engine e = { s.engine e with cut := true, ending := some (.event .linkReset) })) ∧
        ((s.engine e).phase ≠ .streaming → u.engine e = Engine.idle ∧
          ((s.drive d).state = .transferring → (s.drive d).recalDue = false →
            (u.drive d).state = .ready ∧ (u.drive d).armTarget = none))) ∧
      (∀ d r, r ∈ (s.drive d).queue → r.cameOn l = true → own r = false →
        (∀ x ∈ (s.drive d).queue, x.state.holdsArm = true → x.id = r.id) → (∀ e v, (s.engine e).service = some v → v.drive ≠ d) →
        (r.state = .positioning → (u.drive d).state = (s.drive d).state ∧ (u.drive d).armTarget = none) ∧
        (r.state = .orienting → (s.drive d).state = .orienting → (u.drive d).state = .ready ∧ (u.drive d).armTarget = none)) ∧
      (∀ d r i x, r ∈ (s.drive d).queue → out r = true → r.issuer = some i → s.host i.host = some x →
        (∀ k, ∀ y ∈ (s.drive k).queue, ∀ j, y.issuer = some j → j.host = i.host → j.tag = i.tag → y.id = r.id) →
        (∀ q ∈ x.queue, ∀ c, q.record = .completion c → c.tag ≠ i.tag) →
        (∀ k y, k ≠ l → (s.link k).exchange = some (.order y) → y.host = some i.host → y.tag ≠ i.tag) →
        u.tagInUse i.host i.tag = false)) ∧
    -- a transfer on the link of a request accepted on another link
    (∀ e tag writes v r i x, (s.link l).exchange = some (.transfer e tag writes) → (s.engine e).service = some v →
      v.link = some l → (∀ j w, (s.engine j).service = some w → w.link = some l → j = e) →
      (s.engine e).phase ≠ .streaming → (s.engine e).ending = none → s.ReportLaw →
      (s.drive v.drive).request? v.request = some r → r.cameOn l = false → (s.link l).chain = none →
      r.kind.wholeTrack = false → r.marked = false → r.issuer = some i → s.host i.host = some x →
      t.engine e = Engine.idle ∧ (u.link l).exchange = none ∧ (∀ y ∈ (u.drive v.drive).queue, y.id ≠ r.id) ∧
      ∃ y, t.host i.host = some y ∧ ⟨s.time, .completion ⟨i.tag, v.drive, .linkReset, none, none, r.done,
        if r.done < r.count then some r.next else none⟩⟩ ∈ y.queue)

/-- A frame accepted within an order exchange (R25, R32 b, R36 e): the next frame is offered under a fresh wait e), or
with the last the exchange ends, freeing the tag, and the link is IDLE, wait a) starting when its chain is still open.
TRANSFER_START_ACCEPTED (R26, R36): nothing is offered and wait b) of a READ or VERIFY ends, while wait c) of a WRITE
or UPDATE goes on; a READ's next DATA frame follows. In both, with LINK-BUSY answers due the oldest is offered first
(R24). LINK_BUSY_ACCEPTED (R24, R36 g): the next LINK-BUSY answer is offered, else the next waiting frame of the
exchange under its own wait; else wait g) is over and a wait put off by it starts. That TRANSFER_START_ACCEPTED and
LINK_BUSY_ACCEPTED change nothing with no frame offered is the model's choice (log entry 13), and that wait g) starts
when the wait that bounded a LINK-BUSY answer ends is so too (log entry 16). -/
def Obligations.OfferedFramesAreAccepted : Prop :=
  (∀ (i : Instr) (l : Link) (x : OrderExchange) (s : State),
    ((i = .answerAccepted l ∧ ∃ a, (s.link l).offered = some (.frame (.answer a))) ∨
      (i = .readoutDataAccepted l ∧ ∃ tag n bytes, (s.link l).offered = some (.frame (.data tag n bytes)))) →
    (s.link l).exchange = some (.order x) → (∀ w, (s.link l).stall = some w → w.wait ≠ .linkBusy) →
    (∀ tag more, (s.link l).busyTags = tag :: more →
      (∀ f rest, (s.link l).toSend = f :: rest → exec i s = .next (s.updLink l (fun p => { p with
        offered := some (.linkBusy tag), busyTags := more, stall := some ⟨.linkBusy, s.settings.stallLimit⟩ })).settle) ∧
      ((s.link l).toSend = [] → exec i s = .next (s.updLink l (fun p => { p with
        exchange := none, offered := some (.linkBusy tag), busyTags := more
        stall := some ⟨if p.chain.isSome then .chain else .linkBusy, s.settings.stallLimit⟩ })).settle)) ∧
    (∀ f rest, (s.link l).busyTags = [] → (s.link l).toSend = f :: rest →
      let t := s.updLink l (fun p => { p with
        offered := some (.frame f), toSend := rest, stall := some ⟨.answer, s.settings.stallLimit⟩ })
      exec i s = .next t.settle ∧ (s.quiet = true → exec i s = .next t)) ∧
    ((s.link l).busyTags = [] → (s.link l).toSend = [] →
      let t := s.updLink l (fun p => { p with
        exchange := none, offered := none
        stall := if p.chain.isSome then some ⟨.chain, s.settings.stallLimit⟩ else none })
      exec i s = .next t.settle ∧ (s.quiet = true → exec i s = .next t.deliverAll))) ∧
  ∀ (l : Link) (s : State),
    (∀ e tag writes tag' first index, (s.link l).exchange = some (.transfer e tag writes) →
      (s.link l).offered = some (.frame (.transferStart tag' first index)) →
      (∀ w, (s.link l).stall = some w → w.wait ≠ .linkBusy) →
      (∀ tag more, (s.link l).busyTags = tag :: more → exec (.transferStartAccepted l) s =
        .next (s.updLink l (fun p => { p with
          offered := some (.linkBusy tag), busyTags := more
          stall := some (if writes then p.stall.getD ⟨.linkBusy, s.settings.stallLimit⟩
            else ⟨.linkBusy, s.settings.stallLimit⟩) }))) ∧
      ((s.link l).busyTags = [] → (s.link l).toSend = [] → exec (.transferStartAccepted l) s =
        .next (s.updLink l (fun p => { p with offered := none, stall := if writes then p.stall else none }))) ∧
      (∀ f rest, (s.link l).busyTags = [] → writes = false → (s.link l).toSend = f :: rest → exec (.transferStartAccepted l) s =
        .next (s.updLink l (fun p => { p with
          offered := some (.frame f), toSend := rest, stall := some ⟨.readFrame, s.settings.stallLimit⟩ })))) ∧
    (∀ tag, (s.link l).offered = some (.linkBusy tag) →
      let bounded := ∃ w, (s.link l).stall = some w ∧ w.wait = .linkBusy
      (∀ next rest, (s.link l).busyTags = next :: rest → ¬ bounded → (s.link l).stall.isSome = true →
        exec (.linkBusyAccepted l) s =
          .next (s.updLink l (fun p => { p with offered := some (.linkBusy next), busyTags := rest })).deliverAll) ∧
      (∀ next rest, (s.link l).busyTags = next :: rest → bounded → exec (.linkBusyAccepted l) s =
        .next (s.updLink l (fun p => { p with
          offered := some (.linkBusy next), busyTags := rest, due := none
          stall := some ⟨p.due.getD .linkBusy, s.settings.stallLimit⟩ })).deliverAll) ∧
      (∀ f rest x, (s.link l).busyTags = [] → (s.link l).toSend = f :: rest → (s.link l).exchange = some x →
        let wait := match x with
          | .order _ => Wait.answer
          | .report _ => .report
          | .transfer _ _ writes => if writes then .writeFrame else .readFrame
        let sends := fun p : LinkPort =>
          { p with offered := some (.frame f), toSend := rest, stall := some ⟨wait, s.settings.stallLimit⟩ }
        (¬ bounded → exec (.linkBusyAccepted l) s = .next (s.updLink l sends).deliverAll) ∧
        (bounded → (s.link l).due ≠ some .linkBusy → exec (.linkBusyAccepted l) s =
          .next (s.updLink l (fun p => { sends p with due := none })).deliverAll)) ∧
      ((s.link l).busyTags = [] → (s.link l).toSend = [] → ¬ bounded → exec (.linkBusyAccepted l) s =
        .next (s.updLink l (fun p => { p with offered := none })).deliverAll) ∧
      ((s.link l).busyTags = [] → (s.link l).toSend = [] → bounded → exec (.linkBusyAccepted l) s =
        .next (s.updLink l (fun p => { p with
          offered := none, due := none, stall := p.due.map (fun w => ⟨w, s.settings.stallLimit⟩) })).deliverAll)) ∧
    ((s.link l).offered = none →
      exec (.transferStartAccepted l) s = .next s ∧ exec (.linkBusyAccepted l) s = .next s)

/-- REPORT_ACCEPTED (R27, R156, R158): the frame leaves the head of its host's queue and its slot is free; with
notices lost and a slot free a GAP with their number takes it and the count is 0; the exchange ends and the link is
IDLE. -/
def Obligations.ReportsAreTaken : Prop :=
  ∀ (l : Link) (h : HostNo) (r : Report) (x : HostState) (s : State),
    (s.link l).exchange = some (.report h) → (s.link l).offered = some (.frame (.report r)) → (s.link l).busyTags = [] →
    (∀ w, (s.link l).stall = some w → w.wait ≠ .linkBusy) → s.host h = some x →
    let rest := x.queue.tail
    let y : HostState :=
      if 0 < x.lost ∧ x.reserved + rest.length < 24 then
        { x with queue := rest ++ [⟨s.time, .gap x.lost⟩], lost := 0, reportLink := none }
      else { x with queue := rest, reportLink := none }
    let t := (s.updHost h (fun _ => y)).updLink l (fun p => { p with
      exchange := none, offered := none, toSend := []
      stall := if p.chain.isSome then some ⟨.chain, s.settings.stallLimit⟩ else none })
    exec (.reportAccepted l) s = .next t.settle ∧ (s.quiet = true → exec (.reportAccepted l) s = .next t.deliverAll)

/-- The report unit (R148, R149, R153 to R156). A notice takes a free slot at the tail, or is dropped and counted. A
completion takes its reserved slot; of class U it is written into the check record, and of class C or T, when the host
enables it, it is written and RECOVERED is offered unless notices are inhibited. An event of class S or E reaches the
hosts that watch the drive and enable the class: record first, then the notice unless inhibited. A reservation given
up frees a slot, which a GAP with the lost count takes. Each of these keeps the capacity law of a queue, and so does
the reservation of an order that check 11 lets pass. -/
def Obligations.ReportsAreQueuedOrLost : Prop :=
  let noted := fun (now : Time) (ev : CheckEvent) (x : HostState) => { x with check :=
    { pending := true, code := some ev.code, drive := some ev.drive, logical := ev.logical, sector := ev.sector
      physical := ev.physical, time := some now
      overwrites := if x.check.pending then (if x.check.overwrites < 255 then x.check.overwrites + 1 else 255)
        else x.check.overwrites } }
  (∀ (r : Report) (x : HostState),
    (x.reserved + x.queue.length < 24 → x.enqueue r = { x with queue := x.queue ++ [r] }) ∧
    (24 ≤ x.reserved + x.queue.length → x.enqueue r = { x with lost := if x.lost < 255 then x.lost + 1 else 255 })) ∧
  (∀ (now : Time) (c : Completion) (physical : Option Track) (x : HostState),
    let y := { x with queue := x.queue ++ [⟨now, .completion c⟩], reserved := x.reserved - 1 }
    let ev : CheckEvent := ⟨.completion c.status c.cls, c.drive, c.addr.map Addr.track, c.addr.map (·.sector), physical⟩
    let took := x.takeCompletion now c physical
    let enabled := fun k : RecClass => match k with | .c => x.entry.enableC | .t => x.entry.enableT
    (c.status = .complete ∨ (c.status = .reassigned ∧ c.voids = some 0) → took = y) ∧
    (∀ k, c.status = .completeRecovered → c.cls = some k →
      (enabled k = false → took = y) ∧
      (enabled k = true → x.entry.inhibit = true → took = noted now ev y) ∧
      (∀ a p, enabled k = true → x.entry.inhibit = false → c.addr = some a → physical = some p →
        took = (noted now ev y).enqueue ⟨now, .recovered c.tag c.drive k a p⟩)) ∧
    (c.status ≠ .complete → c.status ≠ .completeRecovered →
      (c.status = .reassigned → ∃ n, c.voids = some n ∧ n ≠ 0) → took = noted now ev y)) ∧
  (∀ (s : State) (cls : EventClass) (d : DriveNo) (ev : CheckEvent) (rec : Record) (h : HostNo),
    (s.raise cls d ev rec).host h = (s.host h).map (fun x =>
      let reaches := x.entry.watch.getLsbD d.toNat && (match cls with | .s => x.entry.enableS | .e => x.entry.enableE)
      if reaches = true then
        (if x.entry.inhibit = true then noted s.time ev x else (noted s.time ev x).enqueue ⟨s.time, rec⟩)
      else x)) ∧
  (∀ (now : Time) (x : HostState), x.unreserve now =
    if 0 < x.lost ∧ x.reserved - 1 + x.queue.length < 24 then
      { x with reserved := x.reserved - 1, queue := x.queue ++ [⟨now, .gap x.lost⟩], lost := 0 }
    else { x with reserved := x.reserved - 1 }) ∧
  (∀ (now : Time) (c : Completion) (physical : Option Track) (r : Report) (x : HostState), x.Lawful →
    (x.reserved + x.completions < 16 → x.reserved + x.queue.length < 24 →
      HostState.Lawful { x with reserved := x.reserved + 1 }) ∧
    (r.isCompletion = false → (x.enqueue r).Lawful) ∧ (0 < x.reserved → (x.takeCompletion now c physical).Lawful) ∧
    (x.unreserve now).Lawful ∧ (HostState.slotFreed now { x with queue := x.queue.tail }).Lawful)

/-- READ_DATA_ACCEPTED (R87, R89, R94): the buffer of the sector is EMPTY, one sector more is done, and the next DATA frame
is offered under wait b). Before FLUSHING, and in FLUSHING while another checked sector stands in a buffer, nothing more
happens. With the last sector in FLUSHING the engine is free: with no ending recorded it is the track end, as O53 has it with
sectors of the order left and without, and a READ whose range is done ends COMPLETE, or COMPLETE-RECOVERED when a sector was
recovered, in its host's queue; with an ending recorded, at a failing sector or by DRIVE OFFLINE, the request ends here with
that status, its sectors done and its first sector not done (R18, R101 step 2, R102). That it has no failing address when
every sector is done is the model's choice (log entry 17). -/
def Obligations.ReadDataIsDelivered : Prop :=
  ∀ (l : Link) (e : EngineNo) (tag tag' : Byte) (index : Nat) (bytes : List Byte) (v : Service) (s : State),
    (s.link l).exchange = some (.transfer e tag false) → (s.link l).offered = some (.frame (.data tag' index bytes)) →
    (s.link l).busyTags = [] → (∀ w, (s.link l).stall = some w → w.wait ≠ .linkBusy) →
    (s.engine e).service = some v →
    let g := s.engine e
    let emptied := fun b : Buffer => match b with
      | .full j _ => if j = (v.start.number + index) % 32 then Buffer.empty else b
      | _ => b
    let next := fun p : LinkPort => match p.toSend with
      | [] => { p with offered := none, stall := none }
      | f :: rest => { p with offered := some (.frame f), toSend := rest, stall := some ⟨.readFrame, s.settings.stallLimit⟩ }
    let remains := ∃ k data, emptied g.buf1 = .full k data ∨ emptied g.buf2 = .full k data
    let taken := ((s.updLink l (fun p => { p with offered := none, stall := none })).updEngine e (fun g =>
      { g with buf1 := emptied g.buf1, buf2 := emptied g.buf2 })).updRequest v.drive v.request (fun r =>
        { r with done := r.done + 1 })
    let pumped := fun u : State => u.updLink l (LinkPort.pump u.settings.stallLimit)
    (g.phase ≠ .flushing ∨ remains → exec (.readDataAccepted l) s =
      .next (((s.updLink l next).updEngine e (fun g => { g with buf1 := emptied g.buf1, buf2 := emptied g.buf2 })).updRequest
        v.drive v.request (fun r => { r with done := r.done + 1 }))) ∧
    (g.phase = .flushing → ¬ remains → ∃ t,
      exec (.readDataAccepted l) s = .next t ∧ t.engine e = Engine.idle ∧
      t = (pumped (if g.ending = none then taken.trackEnd e else taken.boundary e)).settle ∧
      (∀ st r i, g.ending = some (.failing st) ∨ (g.ending = some .offline ∧ st = .driveOffline) → v.kind = .read →
        (s.drive v.drive).request? v.request = some r → r.kind = .read → r.issuer = some i → r.marked = false →
        (s.host i.host).isSome = true → ∃ y, t.host i.host = some y ∧
        ⟨s.time, .completion ⟨i.tag, v.drive, st, none, none, r.done + 1,
          if r.done + 1 < r.count then some (Addr.ofNumber (r.start.number + (r.done + 1))) else none⟩⟩ ∈ y.queue) ∧
      (v.link = some l → ∀ x, (t.link l).exchange = some x → ∃ h, x = .report h) ∧
      (∀ r i, (s.drive v.drive).request? v.request = some r → r.kind = .read → v.kind = .read → r.issuer = some i →
        r.marked = false → r.chain = none → r.count ≤ r.done + 1 → g.ending = none → (s.host i.host).isSome = true →
        ∃ y c, t.host i.host = some y ∧ ⟨s.time, .completion c⟩ ∈ y.queue ∧ c.tag = i.tag ∧ c.drive = v.drive ∧
          c.done = r.done + 1 ∧
          c.status = if g.markC.isSome = true ∨ g.markT.isSome = true then .completeRecovered else .complete))

/-- WRITE_DATA_TAKEN (R36 c, R88, R97): the DATA frame next to take on this track by a WRITE fills an EMPTY buffer,
that of an UPDATE fills buffer 2, and wait c) ends. That buffer 1 is taken when both are EMPTY is the model's choice (log entry
22). A frame that the transfer does not await, or a frame outside a
transfer, is discarded. That a frame which the transfer does not await changes nothing, with both buffers full too, is
the model's choice (log entry 13). -/
def Obligations.WriteDataIsTaken : Prop :=
  ∀ (l : Link) (tag : Byte) (index : BitVec 16) (data : List Byte) (s : State),
    (∀ e v, (s.link l).exchange = some (.transfer e tag true) → (s.engine e).service = some v →
      (s.engine e).ending = none → (s.engine e).cut = false → (∀ w, (s.link l).stall = some w → w.wait ≠ .linkBusy) →
      (∀ x, (s.link l).offered ≠ some (.linkBusy x)) →
      let n := v.start.number + index.toNat
      let taken := fun (g : Engine) => (s.updEngine e (fun _ => g)).updLink l (fun p => { p with stall := none })
      let g := s.engine e
      (v.kind = .write → index.toNat = v.nextTake → n / 32 = v.logical.number → n % 32 ≤ v.last →
        let v' := some { v with nextTake := v.nextTake + 1 }
        (g.buf1 = .empty → exec (.writeDataTaken l tag index data) s =
          .next (taken { g with buf1 := .full (n % 32) data, service := v' })) ∧
        (g.buf1 ≠ .empty → g.buf2 = .empty → exec (.writeDataTaken l tag index data) s =
          .next (taken { g with buf2 := .full (n % 32) data, service := v' })) ∧
        (g.buf1 ≠ .empty → g.buf2 ≠ .empty → exec (.writeDataTaken l tag index data) s = .next s)) ∧
      (v.kind = .write → (index.toNat ≠ v.nextTake ∨ n / 32 ≠ v.logical.number ∨ v.last < n % 32) →
        exec (.writeDataTaken l tag index data) s = .next s) ∧
      (v.kind = .update → exec (.writeDataTaken l tag index data) s =
        .next (if index = 0 ∧ g.buf2 = .empty then taken { g with buf2 := .full (n % 32) data } else s))) ∧
    ((∀ e, (s.link l).exchange ≠ some (.transfer e tag true)) → exec (.writeDataTaken l tag index data) s = .next s) ∧
    (∀ e, (s.link l).exchange = some (.transfer e tag true) →
      (s.engine e).ending.isSome = true ∨ (s.engine e).cut = true → exec (.writeDataTaken l tag index data) s = .next s)

/-- STALL_TIMEOUT (R37): a timer that does not run changes nothing, which is the model's choice (log entry 13). Wait
a) discards the open chain; wait b) or c) ends the transfer LINK-STALL, at the end of a sector under the head or at
once; wait d) refuses the order FORMAT, missing data, its tag in use until the exchange ends by the model's choice (log
entry 15); waits e) and f) end the exchange, a report's frame keeping its
place; wait g) withdraws the LINK-BUSY answer. -/
def Obligations.StallsEndWhatTheyBound : Prop :=
  ∀ (l : Link) (left : Nat) (s : State),
    ((s.link l).stall = none → exec (.stallTimeout l) s = .next s) ∧
    (∀ c, (s.link l).stall = some ⟨.chain, left⟩ → (s.link l).chain = some c → ∃ t, exec (.stallTimeout l) s = .next t ∧
      (t.link l).chain = none ∧ (t.link l).up = (s.link l).up ∧
      (∀ r ∈ (t.drive c.drive).queue, ∀ x, r.chain = some x → x.id ≠ c.id) ∧
      (∀ h x, s.host h = some x → ∃ y, t.host h = some y ∧ y.entry = x.entry ∧ x.queue <+: y.queue)) ∧
    (∀ e tag writes v, ((s.link l).stall = some ⟨.readFrame, left⟩ ∨ (s.link l).stall = some ⟨.writeFrame, left⟩) →
      (s.link l).exchange = some (.transfer e tag writes) → (s.link l).busyTags = [] → (s.engine e).service = some v →
      v.link = some l → (s.engine e).ending = none →
      ((s.engine e).phase = .streaming →
        let t := (s.updEngine e (fun g => { g with cut := true, ending := some (.event .linkStall) })).updLink l (fun p =>
          { p with offered := none, toSend := [], stall := none })
        exec (.stallTimeout l) s = .next t.settle ∧ (s.quiet = true → exec (.stallTimeout l) s = .next t)) ∧
      ((s.engine e).phase ≠ .streaming → ∃ t, exec (.stallTimeout l) s = .next t ∧ t.engine e = Engine.idle ∧
        (∀ x, (t.link l).exchange = some x → ∃ h, x = .report h) ∧
        (∀ r i, (s.drive v.drive).request? v.request = some r → r.kind.wholeTrack = false → r.issuer = some i →
          r.marked = false → r.done < r.count → (s.host i.host).isSome = true → ∃ y, t.host i.host = some y ∧
          ⟨s.time, .completion ⟨i.tag, v.drive, .linkStall, none, none, r.done, some r.next⟩⟩ ∈ y.queue))) ∧
    (∀ tag h holds order n taken, (s.link l).stall = some ⟨.image, left⟩ →
      (s.link l).exchange = some (.order ⟨tag, h, holds, .awaitImage order n taken⟩) →
      (∀ f, (s.link l).offered ≠ some (.frame f)) → (s.link l).toSend = [] → (s.link l).busyTags = [] →
      let t := s.answered l tag h holds (refusalAnswer tag .format [6, 0, 0, 0])
      exec (.stallTimeout l) s = .next t.settle ∧ (s.quiet = true → exec (.stallTimeout l) s = .next t)) ∧
    ((s.link l).busyTags = [] →
      let gone := fun p : LinkPort => { p with
        exchange := none, offered := none, toSend := []
        stall := if p.chain.isSome then some ⟨.chain, s.settings.stallLimit⟩ else none }
      ((s.link l).stall = some ⟨.answer, left⟩ → exec (.stallTimeout l) s = .next (s.updLink l gone).settle) ∧
      (∀ h, (s.link l).stall = some ⟨.report, left⟩ → (s.link l).exchange = some (.report h) →
        exec (.stallTimeout l) s =
          .next ((s.updHost h (fun x => { x with reportLink := none })).updLink l gone).settle) ∧
      (∀ tag, (s.link l).stall = some ⟨.linkBusy, left⟩ → (s.link l).offered = some (.linkBusy tag) →
        (s.link l).toSend = [] → exec (.stallTimeout l) s = .next (s.updLink l (fun p => { p with
          offered := none, due := none, stall := p.due.map (fun w => ⟨w, s.settings.stallLimit⟩) })).settle))

/-- DRIVE_ANSWERS_POLL makes an ABSENT position STARTING with SPIN-UP ordered, raising NOT READY, and changes no other
position (R5). CAPABILITY in STARTING stores the record and decides the state (R6, R7): INCOMPATIBLE for an unknown
type, a serial number or a type other than the binding's; else RECALIBRATING with RECALIBRATE ordered and 120 ms on
the seek timer, an unbound map adopting the record. In OFFLINE it replaces the record; elsewhere it is discarded. That
a record is discarded in ABSENT too is the model's choice (log entry 13). -/
def Obligations.DrivesAreAdmitted : Prop :=
  ∀ (d : DriveNo) (s : State),
    let dr := s.drive d
    let out : Drive := { dr with orientTimer := none, pos := none, slot := none, seekTarget := none, cause := none, reason := none }
    let moves := fun new : Drive =>
      let u := s.updDrive d (fun _ => new)
      if new.state.condition = dr.state.condition then u
      else u.raise .e d ⟨.driveState new.state.condition, d, none, none, none⟩ (.driveState d new.state.condition)
    (dr.state = .absent → exec (.driveAnswersPoll d) s =
      .next (moves { out with state := .starting, sent := dr.sent ++ [.spinUp], seekTimer := none }).settle) ∧
    (dr.state ≠ .absent → exec (.driveAnswersPoll d) s = .next s) ∧
    (∀ (code : TypeCode) (n : Fin 1000000),
      let named : Drive := { out with cap := some ⟨code, n⟩ }
      let incompatible := fun r => { named with state := .incompatible, reason := some r, seekTimer := none }
      let recalibrating := fun m =>
        { named with map := m, state := .recalibrating, sent := dr.sent ++ [.recalibrate], seekTimer := some 120 }
      (dr.state = .starting → exec (.capability d code n) s = .next (moves (match code with
        | .unknown => incompatible .unknownType
        | .d40 => match dr.map.bound with
          | none => recalibrating { dr.map with bound := some (n, .d40) }
          | some (k, ty) => if k ≠ n then incompatible .serial else if ty ≠ .d40 then incompatible .type
            else recalibrating dr.map
        | .d80 => match dr.map.bound with
          | none => recalibrating { dr.map with bound := some (n, .d80) }
          | some (k, ty) => if k ≠ n then incompatible .serial else if ty ≠ .d80 then incompatible .type
            else recalibrating dr.map)).settle) ∧
      (dr.state = .offline → exec (.capability d code n) s =
        .next (s.updDrive d (fun dr => { dr with cap := some ⟨code, n⟩ }))) ∧
      (dr.state ≠ .starting → dr.state ≠ .offline → exec (.capability d code n) s = .next s))

/-- The drive events that end a drive's work (R13 b, R14, R15, R16, R17): FAULT, DRIVE_LOST, ORIENTATION_TIMEOUT, an
unsolicited SEEK_CHECK, and RECAL_FAILED, SEEK_CHECK or SEEK_TIMEOUT during a recalibration, whatever the drive was doing.
The drive is FAULTED with the event's cause, or ABSENT without its record; every request ends with the event's status, the
completions standing in each host's queue oldest request first, each with its sectors done and its failing address, those of
the carrier of the copy being the set's size and its lowest void sector (R16 a, R102, R135); the engine is free, the copy is
aborted, chains, deferred tracks and timers are gone, and claim and map binding stay. SPARE-PENDING is cleared for every
AUTO-REASSIGN removed before its copy has begun and for every deferred track dropped (R16 f, h, R143). That a drive in
OFFLINE, STARTING or INCOMPATIBLE may hold a request to end, and that the deferred tracks it holds go with SPARE-PENDING
cleared, is the model's choice (log entries 18, 23), and so is that a request whose engine DRIVE OFFLINE was ending keeps the
status DRIVE-OFFLINE (log entry 18) and that one with every sector done has no failing address (log entry 17); so is that
SPARE-PENDING is cleared on the entry of the drive and track, were it made after a clearing of the history (log entry 21). -/
def Obligations.DriveFailuresEndTheWork : Prop :=
  ∀ (i : Instr) (d : DriveNo) (cause : Option Cause) (stop : Bool) (s : State),
    let dr := s.drive d
    ((i = .fault d ∧ cause = some .faultLine ∧ stop = false ∧
        dr.state ≠ .absent ∧ dr.state ≠ .offline ∧ dr.state ≠ .faulted) ∨
      (i = .driveLost d ∧ cause = none ∧ stop = false ∧ dr.state ≠ .absent) ∨
      (i = .orientationTimeout d ∧ cause = some .orientTimeout ∧ stop = true ∧ dr.orientTimer.isSome = true) ∨
      (i = .seekCheck d ∧ cause = some .unsolicitedSeekCheck ∧ stop = false ∧
        (dr.state = .ready ∨ dr.state = .orienting ∨ dr.state = .transferring)) ∨
      ((i = .recalFailed d ∨ i = .seekCheck d) ∧ cause = some .recalFailed ∧ stop = true ∧
        dr.state = .recalibrating ∧ dr.recalDue = false) ∨
      (i = .seekTimeout d ∧ cause = some .recalFailed ∧ stop = true ∧
        dr.state = .recalibrating ∧ dr.seekTimer.isSome = true)) →
    let status := if cause = none then Status.noDrive else .driveFault
    let ended := fun (i : Issuer) (r : Request) =>
      let whole := r.kind.wholeTrack
      let finishing : Bool := match s.engineOn d with
        | some e => (s.engine e).ending == some .offline && ((s.engine e).service.map (·.request)) == some r.id
        | none => false
      let plain : Completion := ⟨i.tag, d, if finishing = true then .driveOffline else status, none, none,
        if whole = true then 0 else r.done,
        if whole = true then some r.start else if r.done < r.count then some r.next else none⟩
      match s.copy with
      | some c =>
        if c.drive = d ∧ c.request = r.id then
          { plain with
            done := SectorSet.size (s.validOf d c.logical)
            addr := (SectorSet.lowest (~~~(s.validOf d c.logical))).map (fun k => r.start.track.addr k) }
        else plain
      | none => plain
    let ends := fun h : HostNo => dr.queue.filterMap (fun r => match r.issuer with
      | some i =>
        if i.host = h ∧ r.kind ≠ .patrol ∧ r.kind ≠ .autoReassign then some (⟨s.time, .completion (ended i r)⟩ : Report)
        else none
      | none => none)
    ∃ t, exec i s = .next t ∧
    (t.drive d).state = (if cause = none then .absent else .faulted) ∧ (t.drive d).cause = cause ∧
    (t.drive d).cap = (if cause = none then none else dr.cap) ∧ (t.drive d).queue = [] ∧
    (t.drive d).deferred = [] ∧ (t.drive d).pos = none ∧ (t.drive d).slot = none ∧ (t.drive d).seekTimer = none ∧
    (t.drive d).orientTimer = none ∧ (t.drive d).armTarget = none ∧ (t.drive d).recalDue = false ∧
    (t.drive d).claim = dr.claim ∧ (t.drive d).map.bound = dr.map.bound ∧ (t.drive d).cursor = dr.cursor ∧
    (t.drive d).sent = dr.sent ++ (if stop then [.stop] else []) ∧
    (∀ e, s.engineOn d = some e → t.engine e = Engine.idle) ∧ (∀ c, t.copy = some c → c.drive ≠ d) ∧
    (∀ l c, (t.link l).chain = some c → c.drive ≠ d) ∧
    (dr.state.condition ≠ .faulted → ∀ h x, s.host h = some x → x.entry.receives .e d = true →
      ∃ y, t.host h = some y ∧ y.check.pending = true) ∧
    (∀ x ∈ t.history, x.drive = d →
      (∃ r ∈ dr.queue, r.kind = .autoReassign ∧ r.histKey = some x.track ∧
        ∀ c, s.copy = some c → c.drive = d → c.request ≠ r.id) ∨ (∃ y ∈ dr.deferred, y.key = x.track) →
      x.sparePending = false) ∧
    ((∀ r ∈ dr.queue, r.marked = false) → ∀ h x, s.host h = some x → ∃ y, t.host h = some y ∧
      x.queue ++ ends h <+: y.queue) ∧
    (∀ r issuer, r ∈ dr.queue → (dr.queue.map (·.id)).Nodup → (∀ e, (s.engine e).ending ≠ some .offline) →
      r.issuer = some issuer → r.marked = false → r.kind ≠ .patrol → r.kind ≠ .autoReassign →
      (s.host issuer.host).isSome = true → ∃ y c, t.host issuer.host = some y ∧ ⟨s.time, .completion c⟩ ∈ y.queue ∧
        c.tag = issuer.tag ∧ c.drive = d ∧ c.status = status)

/-- INDEX makes a turning drive's slot 0 and restarts its orientation timer at 50 ms (R3, R14); SLOT_ADVANCE steps a known
slot by one within 0 to 127 (R3); PATROL_TIMER_EXPIRY makes a running patrol timer's drive due, and the patrol check follows,
which places the PATROL at the cursor, a cursor beyond the data area becoming 0/0 first (R144, R145). Nothing else changes,
and in any other state nothing does. That SLOT_ADVANCE leads from slot 127 to 0, and the mark that a slot is a new arrival,
after INDEX at slot 0 too, are the model's choice (log entry 14); that the expiry of a patrol timer that does not run changes
nothing is so too (log entry 13). -/
def Obligations.SlotsAndPatrolTimersAdvance : Prop :=
  ∀ (d : DriveNo) (s : State),
    exec (.index d) s = .next
      (if (s.drive d).state = .ready ∨ (s.drive d).state = .moving ∨ (s.drive d).state = .orienting ∨
          (s.drive d).state = .transferring then
        s.updDrive d (fun dr => { dr with slot := some 0, orientTimer := some 50, pointMet := false }) else s) ∧
    ((s.drive d).slot = none → exec (.slotAdvance d) s = .next s) ∧
    (∀ n, (s.drive d).slot = some n → exec (.slotAdvance d) s =
      .next (s.updDrive d (fun dr => { dr with
        slot := some (if n % 128 = 127 then 0 else n % 128 + 1), pointMet := false }))) ∧
    ((∀ n, (s.drive d).patrolTimer ≠ .running n) → exec (.patrolTimerExpiry d) s = .next s) ∧
    (∀ n, (s.drive d).patrolTimer = .running n →
      let cursor : Track :=
        if (s.drive d).cursor.cyl < (s.drive d).type.firstAlternate then (s.drive d).cursor else ⟨0, 0⟩
      let due := s.updDrive d (fun dr => { dr with patrolTimer := .expired, patrolDue := true })
      exec (.patrolTimerExpiry d) s = .next (due.updDrive d (fun dr => { dr with patrolEvent := true })).settle ∧
      (s.quiet = true → (s.drive d).state ≠ .ready ∨ (s.drive d).queue ≠ [] ∨ s.mode ≠ .online ∨
        (s.settings.perDrive.get d).patrol = false → exec (.patrolTimerExpiry d) s = .next due) ∧
      (s.quiet = true → (s.drive d).state = .ready → (s.drive d).queue = [] → s.mode = .online →
        (s.settings.perDrive.get d).patrol = true → s.settings.patrolInterval ≠ 0 →
        (s.drive d).map.isCopying cursor = false →
        (∀ c, s.copy = some c → c.request ≠ s.nextRequest) → ∃ t, exec (.patrolTimerExpiry d) s = .next t ∧
          (t.drive d).patrolDue = false ∧ (t.drive d).cursor = cursor ∧ (t.drive d).armTarget = some (s.translate d cursor) ∧
          ∃ r, (t.drive d).queue = [r] ∧ r.kind = .patrol ∧ r.issuer = none ∧ r.count = 32 ∧
            r.start = cursor.addr 0 ∧ r.state.holdsArm = true))

/-- SEEK_COMPLETE stops the seek timer and makes the recorded target the current track; the arm holder orients, or
with none the drive is READY; with no seek outstanding it is discarded (R11). RECAL_COMPLETE in RECALIBRATING stops
the timer and makes the drive READY at cylinder 0 head 0 with its slot unknown; elsewhere it is discarded (R13 a).
That RECAL_COMPLETE is discarded while a RECALIBRATE waits for an engine is the model's choice (log entry 12). -/
def Obligations.SeeksArriveAndRecalibrationsEnd : Prop :=
  ∀ (d : DriveNo) (s : State),
    let dr := s.drive d
    (dr.state ≠ .moving → exec (.seekComplete d) s = .next s) ∧
    (dr.state = .moving →
      let arrived := { dr with seekTimer := none, pos := dr.seekTarget, seekTarget := none, cause := none, reason := none }
      (∀ r, dr.holder = some r →
        let t := s.updDrive d (fun _ => { arrived with
          state := .orienting
          pointMet := false
          queue := dr.queue.map (fun x => if x.id = r.id then { x with state := .orienting } else x) })
        exec (.seekComplete d) s = .next t.settle ∧ (s.quiet = true → exec (.seekComplete d) s = .next t)) ∧
      (dr.holder = none → exec (.seekComplete d) s = .next
        (s.updDrive d (fun _ => { arrived with state := .ready, selEvent := true, patrolEvent := true })).settle)) ∧
    ((dr.state ≠ .recalibrating ∨ dr.recalDue = true) → exec (.recalComplete d) s = .next s) ∧
    (dr.state = .recalibrating → dr.recalDue = false → ∃ t, exec (.recalComplete d) s = .next t ∧
      (dr.queue = [] → dr.patrolDue = false → dr.slot = none → dr.seekTarget = none → s.quiet = true →
        t = s.updDrive d (fun dr => { dr with
          state := .ready, pos := some ⟨0, 0⟩, seekTimer := none, orientTimer := some 50, successor := none
          cause := none, reason := none })) ∧
      t = (s.updDrive d (fun _ => { dr with
          state := .ready, pos := some ⟨0, 0⟩, slot := dr.slot, seekTarget := dr.seekTarget, seekTimer := none
          orientTimer := some 50, cause := none, reason := none, selEvent := true, patrolEvent := true })).settle)

/-- A seek check of a MOVING drive (R12), from SEEK_CHECK or, with STOP ordered first, from SEEK_TIMEOUT: RECALIBRATE is
ordered, the seek timer runs for 120 ms and the drive is RECALIBRATING with no arm holder. The holder returns to QUEUED with
its seek checks counted, and at the third ends SEEK-CHECK, cancelling the later members of its chain (R35 b), or, a PATROL,
leaves its queue. -/
def Obligations.SeekChecksRecalibrate : Prop :=
  ∀ (i : Instr) (d : DriveNo) (stop : Bool) (s : State),
    let dr := s.drive d
    ((i = .seekCheck d ∧ stop = false) ∨ (i = .seekTimeout d ∧ stop = true ∧ dr.seekTimer.isSome = true)) →
    dr.state = .moving →
    let moved : Drive := { dr with
      state := .recalibrating, pos := none, slot := none, seekTarget := none, orientTimer := none, cause := none
      reason := none, armTarget := none, seekTimer := some 120
      sent := dr.sent ++ (if stop then [.stop, .recalibrate] else [.recalibrate]) }
    (dr.holder = none →
      let t := s.updDrive d (fun _ => moved)
      exec i s = .next t.settle ∧ (s.quiet = true → exec i s = .next t)) ∧
    (∀ r, dr.holder = some r → r.seekChecks + 1 < 3 →
      let t := s.updDrive d (fun _ => { moved with queue := dr.queue.map (fun x =>
        if x.id = r.id then { x with state := .queued, seekChecks := x.seekChecks + 1 } else x) })
      exec i s = .next t.settle ∧ (s.quiet = true → exec i s = .next t)) ∧
    (∀ r, dr.holder = some r → 3 ≤ r.seekChecks + 1 → r.id < s.nextRequest → ∃ t, exec i s = .next t ∧
      (t.drive d).state = .recalibrating ∧ (t.drive d).seekTimer = some 120 ∧ (t.drive d).armTarget = none ∧
      (t.drive d).sent = moved.sent ∧ (∀ x ∈ (t.drive d).queue, x.id ≠ r.id) ∧
      (∀ k issuer, r.chain = some k → r.issuer = some issuer → r.kind.wholeTrack = false →
        (∀ c, s.copy = some c → c.request ≠ r.id) → s.ChainCancelled t d r k
          ⟨issuer.tag, d, .seekCheck, none, none, r.done, if r.done < r.count then some r.next else none⟩) ∧
      (∀ issuer, r.issuer = some issuer → r.kind ≠ .patrol → r.kind ≠ .autoReassign → r.marked = false →
        (∀ c, s.copy = some c → c.request = r.id → r.kind = .reassign) →
        (s.host issuer.host).isSome = true → ∃ y c, t.host issuer.host = some y ∧ ⟨s.time, .completion c⟩ ∈ y.queue ∧
          c.tag = issuer.tag ∧ c.drive = d ∧ c.status = .seekCheck))

/-- ORIENTATION_POINT (R78, R79, R80). Nothing happens on a drive with no arm holder or no arm target, or unless the drive
orients for its holder, its slot is the orientation point, L slots before the start of the holder's next sector on the arm
target, and the arrival has not been dealt with. There a READ, WRITE, VERIFY or UPDATE that finds an IDLE link of its host
and a free engine begins its transfer: the first free engine, the lowest-lettered link, TRANSFERRING, and TRANSFER-START
offered with the first sector and its index; a PATROL or a copy needs an engine alone, a copy's first and last sectors being
those its phase has left. Without what it needs the request misses: its misses count, and at the M-th it is QUEUED again with
a pass more and the arm is free. With both engines free a lower-numbered drive at its own point is granted E0 first; with one
free that drive is granted it and the other misses. That the event acts once for an arrival, and that lower-numbered drives
at their points reach the arbiter together with it, is the model's choice (log entry 14); that it changes nothing otherwise
is so too (log entry 13). -/
def Obligations.OrientationPointsGrantOrMiss : Prop :=
  (∀ (d : DriveNo) (s : State), (s.drive d).holder = none ∨ (s.drive d).armTarget = none →
    exec (.orientationPoint d) s = .next s) ∧
  ∀ (d : DriveNo) (r : Request) (tr : Track) (s : State),
    let dr := s.drive d
    dr.holder = some r → dr.armTarget = some tr →
    let own : Option CopyRecord := s.copy.filter (fun c => c.request == r.id)
    let sector := match own with
      | some c => (SectorSet.lowest (s.copyLeft c)).getD 0
      | none => r.next.sector
    let n := r.start.number + (r.count - 1)
    let last := match own with
      | some c => ((SectorSet.members (s.copyLeft c)).getLast?).getD 31
      | none => if n / 32 = r.next.track.number then n % 32 else 31
    let point := (4 * ((sector + tr.head) % 32) + 128 - s.settings.lead % 128) % 128
    let stands := dr.state = .orienting ∧ r.state = .orienting ∧ dr.pointMet = false ∧ dr.slot = some point
    let first := fun e => (s.engine e).service = none ∧ (e = .e1 → (s.engine .e0).service.isSome = true)
    let begun := fun (e : EngineNo) (link : Option Link) =>
      let g : Engine :=
        { service := some ⟨r.id, d, r.kind, r.issuer, link, r.start, r.next.track, tr, some sector, last, r.done⟩
          buf1 := .empty, buf2 := .empty, retry := 0, markC := r.markC, markT := r.markT, phase := .awaiting
          writing := false, ending := none, cut := false }
      (s.updEngine e (fun _ => g)).updDrive d (fun dr => { dr with
        state := .transferring, pointMet := true, cause := none, reason := none
        queue := dr.queue.map (fun x => if x.id = r.id then { x with state := .transferring, misses := 0 } else x) })
    (¬ stands → exec (.orientationPoint d) s = .next s) ∧
    (stands → (∀ k : DriveNo, k.toNat < d.toNat → s.pointOf k = none) →
      let goes := fun t : State => exec (.orientationPoint d) s = .next t.settle ∧
        (s.quiet = true → exec (.orientationPoint d) s = .next t)
      (∀ i l e, r.issuer = some i → r.kind.reassigns = false → s.idleLink i.host = some l → (s.link l).free = true →
        first e →
        let writes := r.kind == .write || r.kind == .update
        goes ((begun e (some l)).updLink l (fun p => { p with
          exchange := some (.transfer e i.tag writes), offered := some (.frame (.transferStart i.tag r.next r.done))
          toSend := [], stall := some ⟨if writes then .writeFrame else .readFrame, s.settings.stallLimit⟩ }))) ∧
      (∀ e, r.issuer = none ∨ r.kind.reassigns = true → first e → goes (begun e none)) ∧
      (((∃ i, r.issuer = some i ∧ r.kind.reassigns = false ∧ s.idleLink i.host = none) ∨
          ((s.engine .e0).service.isSome = true ∧ (s.engine .e1).service.isSome = true)) →
        let met := s.updDrive d (fun dr => { dr with pointMet := true })
        (r.misses + 1 < s.settings.missLimit → goes (met.updRequest d r.id (fun x => { x with misses := x.misses + 1 }))) ∧
        (s.settings.missLimit ≤ r.misses + 1 → exec (.orientationPoint d) s = .next
          ((met.updRequest d r.id (fun x => { x with
              state := .queued, passes := saturate s.settings.forced (x.passes + 1), misses := 0 })).updDrive d (fun dr =>
            { dr with
              state := .ready, armTarget := none, cause := none, reason := none, selEvent := true
              patrolEvent := true })).settle))) ∧
    (∀ (k : DriveNo) (q : Request) (tk : Track), stands → k.toNat < d.toNat → s.pointOf k = some (q, tk) →
      (∀ j : DriveNo, j.toNat < d.toNat → j ≠ k → s.pointOf j = none) → (∀ e, (s.engine e).service = none) →
      (q.issuer = none ∨ q.kind.reassigns = true ∨ ∃ i, q.issuer = some i ∧ (s.idleLink i.host).isSome = true) →
      ∃ t v, exec (.orientationPoint d) s = .next t ∧ (t.engine .e0).service = some v ∧ v.drive = k ∧ v.request = q.id ∧
        ∀ w, (t.engine .e1).service = some w → w.drive = d ∧ w.request = r.id) ∧
    (∀ (k : DriveNo) (q : Request) (tk : Track) (e : EngineNo), stands → k.toNat < d.toNat → s.pointOf k = some (q, tk) →
      (∀ j : DriveNo, j.toNat < d.toNat → j ≠ k → s.pointOf j = none) →
      (s.engine e).service = none → (∀ g, g ≠ e → (s.engine g).service.isSome = true) →
      (q.issuer = none ∨ q.kind.reassigns = true ∨ ∃ i, q.issuer = some i ∧ (s.idleLink i.host).isSome = true) →
      ∃ (u : State) (v : Service), exec (.orientationPoint d) s = .next u.settle ∧ (u.engine e).service = some v ∧ v.drive = k ∧ v.request = q.id ∧
        (∀ g, g ≠ e → u.engine g = s.engine g) ∧ (∀ j, j ≠ k → j ≠ d → u.drive j = s.drive j) ∧
        u.drive d = if r.misses + 1 < s.settings.missLimit then
          { dr with pointMet := true, queue := dr.queue.map (fun x => if x.id = r.id then { x with misses := x.misses + 1 } else x) }
        else
          { dr with
            pointMet := true, state := .ready, armTarget := none, cause := none, reason := none, selEvent := true
            patrolEvent := true
            queue := dr.queue.map (fun x => if x.id = r.id then
              { x with state := .queued, passes := saturate s.settings.forced (x.passes + 1), misses := 0 } else x) })

/-- The arm of a request goes to a track (R10, R77): ORIENTING where it stands there, else MOVING with SEEK sent and 120 ms
on the timer. The track end of a request (R81, R82, R83, R85): its engine is free, its marks are kept with it and its
exchange is over. With sectors left it keeps the arm and goes to its next track, translated afresh, or is HELD with the arm
free when that track is COPYING. With its range done it ends COMPLETE, or COMPLETE-RECOVERED with the class and the first
sector recovered, retry before correction; the next member of its chain is QUEUED and the released successor. A member of a
closed chain that ends with any other status, at the sector boundary of a failing sector or of a link event or wherever else
a request ends alone, cancels the later members: each ends CHAIN-CANCELLED with 0 sectors done and no failing address, in
chain order after its completion (R35 b). A LINK-BUSY answer still offered when the exchange ends is bounded by wait a) of an
open chain, else by wait g); that a wait g) already running puts wait a) off is the model's choice (R36; log entry 16). -/
def Obligations.TracksEndAndArmsMove : Prop :=
  (∀ (d : DriveNo) (id : Nat) (tr : Track) (s : State),
    let dr := s.drive d
    let placed := fun st => dr.queue.map (fun x => if x.id = id then { x with state := st } else x)
    dr.state = .ready ∨ dr.state = .moving ∨ dr.state = .orienting ∨ dr.state = .transferring →
    (dr.pos = some tr → s.position d id tr = s.updDrive d (fun dr => { dr with
      state := .orienting, queue := placed .orienting, armTarget := some tr, pointMet := false, cause := none
      reason := none })) ∧
    (dr.pos ≠ some tr → s.position d id tr = s.updDrive d (fun dr => { dr with
      state := .moving, queue := placed .positioning, armTarget := some tr, seekTarget := some tr, seekTimer := some 120
      sent := dr.sent ++ [.seek tr], cause := none, reason := none }))) ∧
  (∀ (d : DriveNo) (r : Request) (k : ChainPos) (c : Completion) (s : State), c.status ≠ .complete →
    c.status ≠ .completeRecovered → s.ChainCancelled (s.endWithChain d r c) d r k c) ∧
  (∀ (e : EngineNo) (v : Service) (r : Request) (k : ChainPos) (st : Status) (s : State),
    (s.engine e).service = some v → (s.drive v.drive).request? v.request = some r →
    (s.engine e).ending = some (.failing st) ∨ (s.engine e).ending = some (.event st) →
    st ≠ .complete → st ≠ .completeRecovered → r.kind.wholeTrack = false →
    ∀ i, r.issuer = some i → s.ChainCancelled (s.boundary e) v.drive r k
      ⟨i.tag, v.drive, st, none, none, r.done, if r.done < r.count then some r.next else none⟩) ∧
  ∀ (e : EngineNo) (v : Service) (r : Request) (s : State),
    (s.engine e).service = some v → (s.drive v.drive).request? v.request = some r → (s.drive v.drive).recalDue = false →
    let g := s.engine e
    let u := s.release e
    let t := s.trackEnd e
    let marked := (s.updRequest v.drive v.request (fun r => { r with markC := g.markC, markT := g.markT })).updEngine e
      (fun _ => Engine.idle)
    let ended := match v.link with
      | none => marked
      | some l => marked.updLink l (fun p => { p with
          exchange := none, offered := none, toSend := []
          stall := if p.chain.isSome then some ⟨.chain, s.settings.stallLimit⟩ else none })
    ((v.link = none ∨ ∃ l, v.link = some l ∧ (s.link l).busyTags = [] ∧ (∀ x, (s.link l).offered ≠ some (.linkBusy x)) ∧
        ∀ w, (s.link l).stall = some w → w.wait ≠ .linkBusy) →
      u = ended) ∧
    (∀ l x, v.link = some l → (s.link l).offered = some (.linkBusy x) → u = marked.updLink l (fun p =>
      let p' := { p with exchange := none, toSend := [] }
      match p.stall with
      | some ⟨.linkBusy, _⟩ => { p' with due := if p.chain.isSome then some .chain else none }
      | _ => { p' with stall := some ⟨if p.chain.isSome then .chain else .linkBusy, s.settings.stallLimit⟩ })) ∧
    (r.done < r.count → (∀ c, s.copy = some c → c.request ≠ r.id) →
      ((s.drive v.drive).map.isCopying r.next.track = true → (s.drive v.drive).state = .transferring →
        t = u.updDrive v.drive (fun dr => { dr with
          queue := dr.queue.map (fun x => if x.id = r.id then { x with state := .held } else x)
          armTarget := none, state := .ready, cause := none, reason := none, selEvent := true, patrolEvent := true })) ∧
      ((s.drive v.drive).map.isCopying r.next.track = false →
        t = u.position v.drive r.id (s.translate v.drive r.next.track))) ∧
    (r.count ≤ r.done → t.engine e = Engine.idle ∧ (t.drive v.drive).armTarget = none ∧
      ((s.drive v.drive).state = .transferring → (t.drive v.drive).state = .ready ∧ (t.drive v.drive).selEvent = true) ∧
      (∀ i, r.issuer = some i → r.marked = false → v.kind ≠ .patrol → (s.host i.host).isSome = true →
        let c : Completion := match g.markT, g.markC with
          | some a, _ => ⟨i.tag, v.drive, .completeRecovered, some .t, none, r.done, some a⟩
          | none, some a => ⟨i.tag, v.drive, .completeRecovered, some .c, none, r.done, some a⟩
          | none, none => ⟨i.tag, v.drive, .complete, none, none, r.done, none⟩
        (r.kind.wholeTrack = false → ∃ y, t.host i.host = some y ∧ ⟨s.time, .completion c⟩ ∈ y.queue) ∧
        (∀ id pos m, r.chain = some ⟨id, pos⟩ → (s.drive v.drive).member? id (pos + 1) = some m → m.id ≠ r.id →
          (t.drive v.drive).successor = some m.id ∧ { m with state := .queued } ∈ (t.drive v.drive).queue)))

/-- SECTOR_START (R87, R88, R97, R99, R100, R127, R128). Nothing happens unless the engine waits for the current sector with
no ending recorded and the slot is the sector's start slot. A sector read begins into an EMPTY buffer, or is lost for a
revolution with none, buffer 1 being taken first by the model's choice (log entry 22); a WRITE's sector is written with its
check field from the buffer that holds it, or lost, and meets no void check; a copy's goes from its place in the track buffer
into buffer 1, at this moment by the model's choice (log entry 22), and is written from there; an UPDATE reads its sector,
then writes the merge of the host's bytes. A void sector is passed over by a PATROL, whose cursor advances when it was the
last; it ends a VERIFY, an UPDATE and a READ with no checked sector VOID-SECTOR, with its chain as O53 says, while a READ
with checked sectors drains them first, with both buffers FULL too, where the void check's precedence over the lost
revolution is the model's choice (log entry 24). The patrol cursor advances to the next head, from head 11 to head 0 of the
next cylinder, and from the last data track to 0/0 (R146 a). That the event acts whenever the slot is the start slot is the
model's choice (log entry 14), and that it changes nothing otherwise is so too (log entry 13). -/
def Obligations.SectorsStart : Prop :=
  (∀ (ty : DriveType) (cyl head : Nat),
    let last := match ty with
      | .d40 => 319
      | .d80 => 639
    (head < 11 → cyl ≤ last → nextCursor ty ⟨cyl, head⟩ = ⟨cyl, head + 1⟩) ∧
    (cyl < last → nextCursor ty ⟨cyl, 11⟩ = ⟨cyl + 1, 0⟩) ∧ nextCursor ty ⟨last, 11⟩ = ⟨0, 0⟩) ∧
  ∀ (e : EngineNo) (v : Service) (k : Nat) (s : State), (s.engine e).service = some v → v.current = some k →
    let g := s.engine e
    let dr := s.drive v.drive
    let arrived := dr.slot = some (4 * ((k + v.track.head) % 32))
    let waits := g.phase = .awaiting ∨ g.phase = .retryRevolution ∨ g.phase = .lostRevolution ∨ g.phase = .mergeRevolution
    let void := dr.map.isVoid v.logical k
    let goes := fun t : State => exec (.sectorStart e) s = .next t.settle ∧ (s.quiet = true → exec (.sectorStart e) s = .next t)
    let engine := fun g' : Engine => s.updEngine e (fun _ => g')
    let lost := engine { g with phase := .lostRevolution }
    let writes := fun (g' : Engine) (data : List Byte) =>
      (engine { g' with phase := .streaming, writing := true }).updDrive v.drive (fun dr =>
        { dr with sent := dr.sent ++ [.writeSector v.track k data (Config.checkField data)] })
    let written := writes g
    (¬ waits ∨ g.ending ≠ none ∨ ¬ arrived → exec (.sectorStart e) s = .next s) ∧
    (waits → g.ending = none → arrived →
      (v.kind = .read ∨ v.kind = .verify ∨ v.kind = .patrol → void = false →
        (g.buf1 = .empty → goes (engine { g with phase := .streaming, writing := false, buf1 := .filling k })) ∧
        (g.buf1 ≠ .empty → g.buf2 = .empty → goes (engine { g with phase := .streaming, writing := false, buf2 := .filling k })) ∧
        (g.buf1 ≠ .empty → g.buf2 ≠ .empty → goes lost)) ∧
      (v.kind = .patrol → void = true →
        (k < v.last → goes (engine { g with phase := .awaiting, retry := 0, service := some { v with current := some (k + 1) } })) ∧
        (v.last ≤ k → ∃ t, exec (.sectorStart e) s = .next t ∧ t.engine e = Engine.idle ∧
          ((dr.request? v.request).isSome = true → dr.patrolDue = false →
            (∀ x ∈ dr.queue, x.kind = .patrol → x.id = v.request) →
            (t.drive v.drive).cursor = nextCursor dr.type dr.cursor ∧ (t.drive v.drive).patrolTimer =
              if s.settings.patrolInterval = 0 then .stopped else .running (s.settings.patrolInterval * 100)))) ∧
      (v.kind = .read → void = true → g.cut = false → ((∃ j x, g.buf1 = .full j x) ∨ ∃ j x, g.buf2 = .full j x) →
        goes (engine { g with
          ending := some (.failing .voidSector), phase := .flushing, retry := 0, service := some { v with current := none } })) ∧
      (v.kind = .verify ∨ v.kind = .update ∨
          (v.kind = .read ∧ (g.cut = true ∨ ∀ j x, g.buf1 ≠ .full j x ∧ g.buf2 ≠ .full j x)) →
        void = true → ∃ t, exec (.sectorStart e) s = .next t ∧ t.engine e = Engine.idle ∧
        t = ((engine { g with ending := some (.failing .voidSector) }).boundary e).settle ∧
        ∀ r i, dr.request? v.request = some r → r.kind.wholeTrack = false → r.issuer = some i → r.marked = false →
          r.done < r.count → (s.host i.host).isSome = true → ∃ y, t.host i.host = some y ∧
          ⟨s.time, .completion ⟨i.tag, v.drive, .voidSector, none, none, r.done, some r.next⟩⟩ ∈ y.queue) ∧
      (v.kind = .write →
        (∀ data, g.buf1 = .full k data ∨ ((∀ x, g.buf1 ≠ .full k x) ∧ g.buf2 = .full k data) → goes (written data)) ∧
        ((∀ x, g.buf1 ≠ .full k x ∧ g.buf2 ≠ .full k x) → goes lost)) ∧
      (v.kind = .update → void = false →
        (g.buf1 = .empty → goes (engine { g with phase := .streaming, writing := false, buf1 := .filling k })) ∧
        (∀ j sector j' frame r, g.buf1 = .full j sector → g.buf2 = .full j' frame → dr.request? v.request = some r →
          goes (written (sector.take r.offset ++ frame.take r.length ++ sector.drop (r.offset + r.length)))) ∧
        (∀ j sector, g.buf1 = .full j sector → (∀ j' frame, g.buf2 ≠ .full j' frame) → goes lost)) ∧
      (∀ c, v.kind.reassigns = true → s.copy = some c → c.request = v.request →
        (c.phase = .read → goes (engine { g with phase := .streaming, writing := false, buf1 := .filling k })) ∧
        (∀ data, c.phase = .write → c.places.find? (fun x => x.1 == k) = some (k, data) →
          goes (writes { g with buf1 := .full k data } data))))

/-- How a reading is judged (R90, R91, R92, R93): CLEAN when the check of the data bytes equals the check field read;
CORRECTABLE when they differ and a single burst of at most 11 bits explains it, the bits it covers then being
restored; UNCORRECTABLE when no burst does. Mode OFF delivers every reading as read; DETECT delivers a CLEAN one and
CORRECT a correctable one too, with its data restored; any other is retried below the limit and unrecovered at it. A
delivery after a retry is RETRIED, a correction without one CORRECTED. The code of the check field is a free value,
and which of several bursts that explain a reading is restored is the model's choice: the one the command names, else
a free value (log entry 3). The order in which the bits of a burst are counted (`burstMask`, `fixData`, `fixCheck`), each byte
from its most significant bit and the check field after the data, is the model's choice too, and which disagreements a burst
of 11 bits explains rests on it (log entry 3). -/
def Obligations.ReadingsAreJudged : Prop :=
  ∀ (data : List Byte) (check : BitVec 32) (burst : Option Burst) (retry limit : Nat),
    let cls := classify data check burst
    let fits := fun b : Burst => b.wf = true ∧ Config.checkField (fixData b data) = fixCheck b check
    let again : Option OutcomeKind := if retry = 0 then none else some .retried
    let fails : Verdict := if retry < limit then .retried else .unrecovered
    (cls = .clean ↔ Config.checkField data = check) ∧
    (Config.checkField data ≠ check → (∃ b, fits b) → ∃ b, fits b ∧ cls = .correctable (fixData b data)) ∧
    (∀ b, Config.checkField data ≠ check → burst = some b → fits b → cls = .correctable (fixData b data)) ∧
    (cls = .uncorrectable ↔ Config.checkField data ≠ check ∧ ∀ b, ¬ fits b) ∧
    verdict .off retry limit data cls = .delivered data none ∧
    (cls = .clean → verdict .detect retry limit data cls = .delivered data again ∧
      verdict .correct retry limit data cls = .delivered data again) ∧
    (∀ fixed, cls = .correctable fixed → verdict .detect retry limit data cls = fails ∧
      verdict .correct retry limit data cls = .delivered fixed (if retry = 0 then some .corrected else again)) ∧
    (cls = .uncorrectable → verdict .detect retry limit data cls = fails ∧ verdict .correct retry limit data cls = fails)

/-- SECTOR_READ_END (R87, R89, R92 to R95, R97 to R99, R101, R103, R127). Nothing happens unless a sector is being read,
which is the model's choice (log entry 13). A reading to be retried empties its buffer and waits a revolution with one retry
more. The outcome of a delivery or an unrecovered sector goes to the history, but for a copy's, and a delivery by correction
or retry leaves the first sector of its class as the request's mark. Delivered, in either buffer: a READ's sector stands
there and its DATA frame is queued for the link, the last of a track leading to FLUSHING; a VERIFY's is counted, the last
leading to the track end; a PATROL goes on, its cursor advancing at the end; an UPDATE's waits for its merge, still the
current sector with its retries (R85); FLUSHING has no current sector; a copy's is captured in its place. Unrecovered: a READ
with checked sectors drains them, any other READ, VERIFY or UPDATE ends DATA-CHECK at this sector boundary, with its chain as
O53 says; a PATROL goes on; a copy notes the sector. A copy with no sector left to read goes to its write phase on the
destination, or ends when it has captured nothing. When an event is ending the engine's work (LINK-LOST, LINK-RESET or
LINK-STALL, DRIVE OFFLINE, STRING RESET) the sector is judged and recorded but not retried, and the work ends here as
`State.WorkEnded` says (R18, R20 c, R38, R104): under DRIVE OFFLINE a VERIFY first counts a delivered sector, and a READ
drains the checked sectors it has, the delivered one among them; else the sector is dropped. That a request which an event
ends after its last sector has no failing address is the model's choice (log entry 17), and so is it that a threshold reached
under DRIVE OFFLINE places an AUTO-REASSIGN on the OFFLINE drive (log entry 23). -/
def Obligations.SectorReadsEnd : Prop :=
  ∀ (e : EngineNo) (data : List Byte) (check : BitVec 32) (burst : Option Burst) (s : State),
    let g := s.engine e
    let ends := exec (.sectorReadEnd e data check burst) s
    ((g.phase ≠ .streaming ∨ g.writing = true ∨ g.service = none) → ends = .next s) ∧
    (∀ v k, g.service = some v → v.current = some k → g.phase = .streaming → g.writing = false →
      (g.buf1 = .filling k ∨ ((∀ j, g.buf1 ≠ .filling j) ∧ g.buf2 = .filling k)) →
      let dr := s.drive v.drive
      let st := s.settings.perDrive.get v.drive
      let x := verdict st.ecc g.retry st.retries data (classify data check burst)
      let a := v.logical.addr k
      let recorded := fun o : Option OutcomeKind => match o with
        | some kind => if v.kind.reassigns = true then s else s.outcome v.drive v.track k kind
        | none => s
      let marked := fun o : Option OutcomeKind => { g with
        markC := if o = some .corrected then some (g.markC.getD a) else g.markC
        markT := if o = some .retried then some (g.markT.getD a) else g.markT }
      let fill := fun (b : Buffer) (g : Engine) => if g.buf1 = .filling k then { g with buf1 := b } else { g with buf2 := b }
      let next := fun (j : Nat) (g : Engine) =>
        { g with phase := .awaiting, retry := 0, service := some { v with current := some j } }
      let flush := fun g : Engine =>
        { g with phase := .flushing, retry := 0, service := some { v with current := none } }
      let goes := fun (o : Option OutcomeKind) (t : State) =>
        ends = .next t.settle ∧ (s.quiet = true → o = none → ends = .next t)
      let patrolled := ∃ t, ends = .next t ∧ t.engine e = Engine.idle ∧
        ((dr.request? v.request).isSome = true → dr.patrolDue = false →
          (∀ x ∈ dr.queue, x.kind = .patrol → x.id = v.request) →
          (t.drive v.drive).cursor = nextCursor dr.type dr.cursor)
      -- a copy after its sector k has been captured or noted: the next sector to read, or the end of the read phase
      let reads := fun (o : Option OutcomeKind) (c : CopyRecord) =>
        (∀ j, SectorSet.above (c.toRead &&& ~~~(c.captured ||| c.unrecovered)) k = some j →
          goes o (({ s with copy := some c } : State).updEngine e (fun _ => next j (fill .empty (marked o))))) ∧
        (SectorSet.above (c.toRead &&& ~~~(c.captured ||| c.unrecovered)) k = none →
          let w := { c with phase := CopyPhase.write }
          let u := (({ s with copy := some w } : State).updEngine e (fun _ => fill .empty (marked o))).release e
          ∀ r, (u.drive v.drive).request? v.request = some r → ends = .next
            (if c.captured = 0 then u.endCopy w r
              else u.position v.drive r.id (altTrack (u.drive c.drive).type c.dest)).settle)
      -- the DATA frame of a delivered sector, and a link that is in a state to queue it
      let framed := fun (o : Option OutcomeKind) (bytes : List Byte) (l : Link) (i : Issuer) =>
        let frame : Frame := .data i.tag (a.number - v.start.number) bytes
        (recorded o).updLink l (fun p =>
          if p.offered.isSome then { p with toSend := p.toSend ++ [frame] }
          else { p with offered := some (.frame frame), stall := some ⟨.readFrame, s.settings.stallLimit⟩ })
      let takes := fun l => (s.link l).offered = none → (s.link l).toSend = [] ∧ (s.link l).busyTags = [] ∧
        (s.link l).stall = none ∧ ∃ tag, (s.link l).exchange = some (.transfer e tag false)
      (∀ ending, g.ending = some ending → (∀ status, ending ≠ .failing status) →
        let o := match x with
          | .delivered _ o => o
          | .retried => none
          | .unrecovered => some .unrecovered
        let left := (recorded o).updEngine e (fun _ => fill .empty (marked o))
        let stops := fun u : State => ends = .next (u.boundary e).settle ∧ u.WorkEnded (u.boundary e) e v ending
        let full := (∃ j y, (fill .empty g).buf1 = .full j y) ∨ ∃ j y, (fill .empty g).buf2 = .full j y
        (ending ≠ .offline ∨ (v.kind = .read ∧ g.cut = true) ∨ (v.kind ≠ .read ∧ v.kind ≠ .verify) → stops left) ∧
        (ending = .offline → v.kind = .verify →
          (∀ bytes o, x = .delivered bytes o →
            stops (left.updRequest v.drive v.request (fun r => { r with done := r.done + 1 }))) ∧
          ((∀ bytes o, x ≠ .delivered bytes o) → stops left)) ∧
        (ending = .offline → v.kind = .read → g.cut = false →
          (∀ bytes o l i, x = .delivered bytes o → v.link = some l → v.issuer = some i → takes l →
            ends = .next ((framed o bytes l i).updEngine e (fun _ =>
              flush (fill (.full k bytes) (marked o)))).settle) ∧
          ((∀ bytes o, x ≠ .delivered bytes o) →
            (full → ends = .next ((recorded o).updEngine e (fun _ =>
              flush (fill .empty (marked o)))).settle) ∧
            (¬ full → stops left)))) ∧
      (g.ending = none → (x = .retried →
        goes none (s.updEngine e (fun _ => { fill .empty g with phase := .retryRevolution, retry := g.retry + 1 }))) ∧
      (∀ bytes o, x = .delivered bytes o →
        (∀ l i, v.kind = .read → v.link = some l → v.issuer = some i → takes l →
          let u := framed o bytes l i
          (k < v.last → goes o (u.updEngine e (fun _ => next (k + 1) (fill (.full k bytes) (marked o))))) ∧
          (v.last ≤ k → goes o (u.updEngine e (fun _ => flush (fill (.full k bytes) (marked o)))))) ∧
        (v.kind = .verify →
          let u := fun h : Engine → Engine => ((recorded o).updEngine e (fun _ => h (fill .empty (marked o)))).updRequest
            v.drive v.request (fun r => { r with done := r.done + 1 })
          (k < v.last → goes o (u (next (k + 1)))) ∧ (v.last ≤ k → ends = .next ((u id).trackEnd e).settle)) ∧
        (v.kind = .patrol →
          (k < v.last → goes o ((recorded o).updEngine e (fun _ => next (k + 1) (fill .empty (marked o))))) ∧
          (v.last ≤ k → patrolled)) ∧
        (v.kind = .update → goes o ((recorded o).updEngine e (fun _ =>
          { fill (.full k bytes) (marked o) with phase := .mergeRevolution }))) ∧
        (∀ c, v.kind.reassigns = true → s.copy = some c → c.request = v.request → c.phase = .read →
          reads o { c with captured := SectorSet.add c.captured k, places := c.places ++ [(k, bytes)] })) ∧
      (x = .unrecovered →
        let u := recorded (some .unrecovered)
        let left := fill .empty g
        let drains := v.kind = .read ∧ g.cut = false ∧ ((∃ j y, left.buf1 = .full j y) ∨ ∃ j y, left.buf2 = .full j y)
        (drains → ends = .next
          (u.updEngine e (fun _ => { flush left with ending := some (.failing .dataCheck) })).settle) ∧
        (v.kind = .read ∨ v.kind = .verify ∨ v.kind = .update → ¬ drains → ∃ t, ends = .next t ∧ t.engine e = Engine.idle ∧
          t = ((u.updEngine e (fun _ => { left with
            phase := .awaiting, ending := some (.failing .dataCheck) })).boundary e).settle ∧
          ∀ r i, dr.request? v.request = some r → r.kind.wholeTrack = false → r.issuer = some i → r.marked = false →
            r.done < r.count → (s.host i.host).isSome = true → ∃ y, t.host i.host = some y ∧
            ⟨s.time, .completion ⟨i.tag, v.drive, .dataCheck, none, none, r.done, some r.next⟩⟩ ∈ y.queue) ∧
        (v.kind = .patrol →
          (k < v.last → ends = .next (u.updEngine e (fun _ => next (k + 1) left)).settle) ∧ (v.last ≤ k → patrolled)) ∧
        (∀ c, v.kind.reassigns = true → s.copy = some c → c.request = v.request → c.phase = .read →
          reads (some .unrecovered) { c with unrecovered := SectorSet.add c.unrecovered k }))))

/-- SECTOR_WRITE_END (R88, R89, R96, R97, R113, R128). Nothing happens unless a sector is being written, which is the model's
choice (log entry 13). A WRITE's sector is done: its buffer is EMPTY, a VOID entry's validity set gains it and the entry is
ACTIVE when the set is full, wait c) starts while a frame of the track is to come (that it starts afresh at the freed buffer is
the model's choice, log entry 16), and the next sector is awaited, or the track end follows the last. An UPDATE's sector ends
its engine's work. A copy's sector leaves its buffer EMPTY and joins the COPYING entry's set, whose size is the sectors done,
and the copy goes on with the next captured sector or ends. When an event is ending the engine's work the written sector counts
in the same way, and the work ends here as `State.WorkEnded` says (R18, R20 c, R38, R104); that a request which an event ends
after its last sector has no failing address is the model's choice (log entry 17). -/
def Obligations.SectorWritesEnd : Prop :=
  ∀ (e : EngineNo) (s : State),
    let g := s.engine e
    ((g.phase ≠ .streaming ∨ g.writing = false ∨ g.service = none) → exec (.sectorWriteEnd e) s = .next s) ∧
    (∀ v k, g.service = some v → v.current = some k → g.phase = .streaming → g.writing = true →
      let goes := fun t : State => exec (.sectorWriteEnd e) s = .next t.settle ∧
        (s.quiet = true → exec (.sectorWriteEnd e) s = .next t)
      let gained := fun m : SpareMap => { m with entries := m.entries.map (fun x =>
        if x.primary = v.logical then match x.state with
          | .void set => { x with state := if SectorSet.add set k = BitVec.allOnes 32 then .active else .void (SectorSet.add set k) }
          | _ => x
        else x) }
      let copied := fun m : SpareMap => { m with entries := m.entries.map (fun x =>
        if x.primary = v.logical then match x.state with
          | .copying set => { x with state := .copying (SectorSet.add set k) }
          | _ => x
        else x) }
      let emptied := fun b : Buffer => match b with
        | .full j x => if j = k then Buffer.empty else .full j x
        | b => b
      let counted := s.updRequest v.drive v.request (fun r => { r with done := r.done + 1 })
      let left := { g with buf1 := emptied g.buf1, buf2 := emptied g.buf2 }
      let wrote := fun h : Engine → Engine => (counted.updDrive v.drive (fun dr =>
        { dr with map := gained dr.map })).updEngine e (fun _ => h left)
      let copyWrote := fun set : SectorSet =>
        ((s.updDrive v.drive (fun dr => { dr with map := copied dr.map })).updRequest v.drive v.request (fun r =>
          { r with done := SectorSet.size (SectorSet.add set k) })).updEngine e (fun _ => left)
      (∀ ending, g.ending = some ending → (∀ status, ending ≠ .failing status) →
        let stops := fun u : State => exec (.sectorWriteEnd e) s = .next (u.boundary e).settle ∧
          u.WorkEnded (u.boundary e) e v ending
        (v.kind = .write → stops (wrote id)) ∧ (v.kind = .update → stops counted) ∧
        (∀ entry set, v.kind.reassigns = true → (s.drive v.drive).map.entry? v.logical = some entry →
          entry.state = .copying set → stops (copyWrote set))) ∧
      (g.ending = none → (∀ l, v.kind = .write → v.link = some l → (∀ w, (s.link l).stall = some w → w.wait ≠ .linkBusy) →
        let n := v.start.number + v.nextTake
        let u := fun h : Engine → Engine =>
          let t := wrote h
          if n / 32 = v.logical.number ∧ n % 32 ≤ v.last then
            t.updLink l (fun p => { p with stall := some ⟨.writeFrame, s.settings.stallLimit⟩ })
          else t
        (k < v.last → goes (u (fun g => { g with
          phase := .awaiting, retry := 0, service := some { v with current := some (k + 1) } }))) ∧
        (v.last ≤ k → exec (.sectorWriteEnd e) s = .next ((u id).trackEnd e).settle)) ∧
      (v.kind = .update → ∃ t, exec (.sectorWriteEnd e) s = .next t ∧ t.engine e = Engine.idle ∧
        ∀ r i, (s.drive v.drive).request? v.request = some r → r.kind = .update → r.issuer = some i → r.marked = false →
          r.count ≤ r.done + 1 → (s.host i.host).isSome = true → ∃ y c, t.host i.host = some y ∧
          ⟨s.time, .completion c⟩ ∈ y.queue ∧ c.tag = i.tag ∧ c.done = r.done + 1 ∧
          c.status = if g.markC.isSome = true ∨ g.markT.isSome = true then .completeRecovered else .complete) ∧
      (∀ c entry set, v.kind.reassigns = true → s.copy = some c → c.request = v.request → c.phase = .write →
        c.drive = v.drive → c.logical = v.logical → (s.drive v.drive).map.entry? v.logical = some entry →
        entry.state = .copying set →
        let rest := c.captured &&& ~~~(SectorSet.add set k)
        let u := copyWrote set
        (∀ j, SectorSet.above rest k = some j → goes (u.updEngine e (fun _ =>
          { left with phase := .awaiting, retry := 0, service := some { v with current := some j } }))) ∧
        (∀ r, SectorSet.above rest k = none → ((u.release e).drive v.drive).request? v.request = some r →
          exec (.sectorWriteEnd e) s = .next ((u.release e).endCopy c r).settle))))

/-- An outcome handed to the error history (R138 to R142). An entry of the drive and physical track counts it; else a
new entry is made, in a full table in the place of the victim, the entry not SPARE-PENDING of the lowest total, then
the oldest, then the lowest key; with every entry SPARE-PENDING the overflow count rises. An unrecovered outcome
raises SUSPECT with the entry's count, recorded or not. A recovered one that brings the entry to the threshold, with
auto-spare on, the mode ONLINE, SPARE-PENDING clear and the data of a logical track on the physical one, sets
SPARE-PENDING and places an AUTO-REASSIGN of that track at the queue's tail, or defers it when the queue holds 16; that it
does so on an OFFLINE drive as well is the model's choice (log entry 23). Nothing else changes. -/
def Obligations.OutcomesReachTheHistory : Prop :=
  ∀ (d : DriveNo) (tr : Track) (k : Nat) (kind : OutcomeKind) (s : State),
    let here := fun e : HistEntry => e.drive == d && e.track == tr
    let up := fun n : Nat => if n < 255 then n + 1 else 255
    let counted := fun e : HistEntry => { e with
      lastSector := k, lastSeen := s.time
      corrected := if kind = .corrected then up e.corrected else e.corrected
      retried := if kind = .retried then up e.retried else e.retried
      unrecovered := if kind = .unrecovered then up e.unrecovered else e.unrecovered
      suspect := if kind = .unrecovered then true else e.suspect }
    let new : HistEntry :=
      { drive := d, track := tr, lastSector := k, firstSeen := s.time, lastSeen := s.time, sparePending := false
        corrected := if kind = .corrected then 1 else 0, retried := if kind = .retried then 1 else 0
        unrecovered := if kind = .unrecovered then 1 else 0, suspect := if kind = .unrecovered then true else false }
    let total := fun e : HistEntry => e.corrected + e.retried + e.unrecovered
    let age := fun e : HistEntry => (s.time - e.lastSeen).toNat
    let lower := fun x y : HistEntry => x.drive.toNat < y.drive.toNat ∨ x.drive = y.drive ∧
      (x.track.cyl < y.track.cyl ∨ x.track.cyl = y.track.cyl ∧ x.track.head < y.track.head)
    let sooner := fun x y : HistEntry => total x < total y ∨ total x = total y ∧ (age y < age x ∨ age x = age y ∧ lower x y)
    let u := s.recordOutcome d tr k kind
    let t := s.outcome d tr k kind
    -- the record
    ((∃ e ∈ s.history, here e = true) → u = { s with history := s.history.map (fun e => if here e then counted e else e) }) ∧
    ((∀ e ∈ s.history, here e = false) →
      (s.history.length < 64 → u = { s with history := s.history ++ [new] }) ∧
      (∀ v ∈ s.history, 64 ≤ s.history.length → v.sparePending = false →
        (∀ e ∈ s.history, e.sparePending = false → (e.drive, e.track) ≠ (v.drive, v.track) → sooner v e) →
        u = { s with history := s.history.filter (fun e => !(e.drive == v.drive && e.track == v.track)) ++ [new] }) ∧
      (64 ≤ s.history.length → (∀ e ∈ s.history, e.sparePending = true) → u = { s with overflow := up s.overflow })) ∧
    -- SUSPECT
    (kind = .unrecovered →
      let logical := reverse (s.drive d).type (s.drive d).map tr
      let n := match u.history.find? here with | some e => e.unrecovered | none => 0
      t = u.raise .s d ⟨.suspect, d, logical, some k, some tr⟩ (.suspect d tr logical k n)) ∧
    -- the threshold
    (kind ≠ .unrecovered →
      let asks := fun (e : HistEntry) (x : Track) => u.history.find? here = some e ∧
        reverse (s.drive d).type (s.drive d).map tr = some x ∧ s.translate d x = tr ∧
        s.settings.spareThreshold ≤ e.corrected + e.retried ∧ e.sparePending = false ∧
        (s.settings.perDrive.get d).autoSpare = true ∧ s.mode = .online
      ((∀ e x, ¬ asks e x) → t = u) ∧
      (∀ e x, asks e x →
        let p : State := { u with history := u.history.map (fun e => if here e then { e with sparePending := true } else e) }
        let r : Request :=
          { id := s.nextRequest, issuer := none, kind := .autoReassign, start := ⟨x.cyl, x.head, 0⟩, count := 32
            form := .new, state := .queued, histKey := some tr }
        ((s.drive d).queue.length < 16 →
          t = { p.updDrive d (fun dr => { dr with queue := dr.queue ++ [r], selEvent := true }) with
            nextRequest := s.nextRequest + 1 }) ∧
        (16 ≤ (s.drive d).queue.length →
          t = p.updDrive d (fun dr => { dr with deferred := dr.deferred ++ [⟨x, tr⟩] }))))

/-- Translation and reverse translation (R112, R114): a track without an entry lies where it is; one with an entry
lies on its alternate a, at cylinder F + a div 12, head a mod 12; and under the law of R111 the reverse of an
alternate of the pool is the primary of the entry that names it, or none, while a data track is its own. -/
def Obligations.TranslationIsReversed : Prop :=
  ∀ (ty : DriveType) (m : SpareMap), m.Lawful → (∀ x ∈ m.entries, x.alt < 96) →
    let first := match ty with
      | .d40 => 320
      | .d80 => 640
    (∀ tr, m.entry? tr = none → translate ty m tr = tr) ∧
    (∀ x ∈ m.entries, translate ty m x.primary = ⟨first + x.alt / 12, x.alt % 12⟩ ∧
      reverse ty m (translate ty m x.primary) = some x.primary) ∧
    (∀ tr : Track, tr.cyl < first → reverse ty m tr = some tr) ∧
    (∀ a < 96, (∀ x ∈ m.entries, x.alt ≠ a) → reverse ty m ⟨first + a / 12, a % 12⟩ = none) ∧
    (∀ a < 96, m.altState a ≠ .assigned → reverse ty m ⟨first + a / 12, a % 12⟩ = none)

/-- The estimate and the score (R72 to R76), for a profile that meets the constraints of R74 and settings in range: no move on
the same track, the head-switch time within a cylinder, else the seek time of the distance between cylinders, which is T at a
point of the profile, constant outside the points, interpolated between two of them by N / W under CHOP and (2N + W) / 2W under
ROUND, and at most one slot apart under the two; a wait of 64 with the slot unknown, else the slots from arrival to the
sector's start. Every estimate lies between 0 and 1157 slots, every score between 0 and its estimate. The score of a request on
its drive is that of the profile of the recorded type, the arm's place and slot, and the request's track and sector (R72): the
next ones of its range, translated; for a reassignment those of its logical track, or, once its copy has begun, the track of
the copy's phase and the lowest sector it has still to read or write. -/
def Obligations.EstimatesAreBounded : Prop :=
  (∀ (p : Profile) (ty : DriveType) (st : Settings) (src dst : Track) (slot : Option Nat) (k passes : Nat),
    p.ordered ty = true → p.headSwitch ≤ 15 → st.lead ≤ 7 →
    let seek := seekTime p st.rounding
    let distance := if src.cyl ≤ dst.cyl then dst.cyl - src.cyl else src.cyl - dst.cyl
    let move := if src = dst then 0 else if src.cyl = dst.cyl then p.headSwitch else seek distance
    let wait := match slot with
      | none => 64
      | some s0 => (4 * ((k + dst.head) % 32) + 128 - (s0 + move + st.lead) % 128) % 128
    let cost := estimate p st src slot dst k
    cost = move + st.lead + wait ∧ cost ≤ 1157 ∧ scoreOf st cost passes ≤ cost ∧
    (st.aging * passes < cost → scoreOf st cost passes = cost - st.aging * passes) ∧
    (cost ≤ st.aging * passes → scoreOf st cost passes = 0) ∧
    (∀ q ∈ p.points, seek q.1 = q.2) ∧ (∀ n q, p.points.getLast? = some q → q.1 ≤ n → seek n = q.2) ∧
    (∀ n, seekTime p .chop n ≤ seekTime p .round n ∧ seekTime p .round n ≤ seekTime p .chop n + 1) ∧
    (∀ q n, p.points.head? = some q → n ≤ q.1 → seek n = q.2) ∧
    (∀ before lo hi after n, p.points = before ++ lo :: hi :: after → lo.1 < n → n ≤ hi.1 →
      let num := (hi.2 - lo.2) * (n - lo.1)
      let width := hi.1 - lo.1
      seekTime p .chop n = lo.2 + num / width ∧ seekTime p .round n = lo.2 + (2 * num + width) / (2 * width))) ∧
  ∀ (d : DriveNo) (r : Request) (ty : DriveType) (serial : Fin 1000000) (p : Profile) (src : Track) (s : State),
    let dr := s.drive d
    dr.cap = some ⟨match ty with | .d40 => .d40 | .d80 => .d80, serial⟩ →
    (match ty with | .d40 => s.profile40 | .d80 => s.profile80) = some p → dr.pos = some src →
    let scores := fun (tr : Track) (k : Nat) =>
      s.score d r = scoreOf s.settings (estimate p s.settings src dr.slot tr k) r.passes
    ((∀ c, s.copy = some c → c.request ≠ r.id) →
      (r.kind = .read ∨ r.kind = .write ∨ r.kind = .verify ∨ r.kind = .update →
        let n := (r.start.cyl * 12 + r.start.head) * 32 + r.start.sector + r.done
        scores (s.translate d ⟨n / 384, n / 32 % 12⟩) (n % 32)) ∧
      (r.kind = .reassign ∨ r.kind = .autoReassign ∨ r.kind = .patrol → r.start.sector = 0 →
        scores (s.translate d ⟨r.start.cyl, r.start.head⟩) 0)) ∧
    (∀ c k, s.copy = some c → c.request = r.id → c.drive = d →
      (c.phase = .read → SectorSet.lowest (c.toRead &&& ~~~(c.captured ||| c.unrecovered)) = some k → scores c.source k) ∧
      (∀ e, c.phase = .write → dr.map.entry? c.logical = some e →
        SectorSet.lowest (c.captured &&& ~~~e.state.valid) = some k →
        scores ⟨(match ty with | .d40 => 320 | .d80 => 640) + c.dest / 12, c.dest % 12⟩ k))

end
end

