-- ==== Sys2Proof/Laws/State.lean ====
section
/-! SUPPORT. The small lemmas of the containers and of the updates of a state: one per field per update. -/
namespace Sys2Proof


@[simp] theorem PerLink.get_set {α : Type} (p : PerLink α) (i j : Link) (x : α) :
    (p.set i x).get j = if j = i then x else p.get j := by
  cases i <;> cases j <;> rfl

@[simp] theorem PerLink.get_const {α : Type} (x : α) (i : Link) : (PerLink.const x).get i = x := by
  cases i <;> rfl

theorem PerLink.ext_get {α : Type} {p q : PerLink α} (h : ∀ i, p.get i = q.get i) : p = q := by
  cases p; cases q
  simp only [PerLink.mk.injEq]
  refine ⟨h .a, h .b, h .c, h .d⟩

@[simp] theorem PerLink.set_get {α : Type} (p : PerLink α) (i : Link) : p.set i (p.get i) = p := by
  cases i <;> rfl

@[simp] theorem PerLink.set_set {α : Type} (p : PerLink α) (i : Link) (x y : α) : (p.set i x).set i y = p.set i y := by
  cases i <;> rfl

@[simp] theorem PerLink.get_map {α β : Type} (f : α → β) (p : PerLink α) (i : Link) : (p.map f).get i = f (p.get i) := by
  cases i <;> rfl


@[simp] theorem PerHost.get_set {α : Type} (p : PerHost α) (i j : HostNo) (x : α) :
    (p.set i x).get j = if j = i then x else p.get j := by
  cases i <;> cases j <;> rfl

@[simp] theorem PerHost.get_const {α : Type} (x : α) (i : HostNo) : (PerHost.const x).get i = x := by
  cases i <;> rfl

theorem PerHost.ext_get {α : Type} {p q : PerHost α} (h : ∀ i, p.get i = q.get i) : p = q := by
  cases p; cases q
  simp only [PerHost.mk.injEq]
  refine ⟨h .h1, h .h2, h .h3, h .h4⟩

@[simp] theorem PerHost.set_get {α : Type} (p : PerHost α) (i : HostNo) : p.set i (p.get i) = p := by
  cases i <;> rfl

@[simp] theorem PerHost.set_set {α : Type} (p : PerHost α) (i : HostNo) (x y : α) : (p.set i x).set i y = p.set i y := by
  cases i <;> rfl

@[simp] theorem PerHost.get_map {α β : Type} (f : α → β) (p : PerHost α) (i : HostNo) : (p.map f).get i = f (p.get i) := by
  cases i <;> rfl


@[simp] theorem PerDrive.get_set {α : Type} (p : PerDrive α) (i j : DriveNo) (x : α) :
    (p.set i x).get j = if j = i then x else p.get j := by
  cases i <;> cases j <;> rfl

@[simp] theorem PerDrive.get_const {α : Type} (x : α) (i : DriveNo) : (PerDrive.const x).get i = x := by
  cases i <;> rfl

theorem PerDrive.ext_get {α : Type} {p q : PerDrive α} (h : ∀ i, p.get i = q.get i) : p = q := by
  cases p; cases q
  simp only [PerDrive.mk.injEq]
  refine ⟨h .d0, h .d1, h .d2, h .d3, h .d4, h .d5, h .d6, h .d7⟩

@[simp] theorem PerDrive.set_get {α : Type} (p : PerDrive α) (i : DriveNo) : p.set i (p.get i) = p := by
  cases i <;> rfl

@[simp] theorem PerDrive.set_set {α : Type} (p : PerDrive α) (i : DriveNo) (x y : α) : (p.set i x).set i y = p.set i y := by
  cases i <;> rfl

@[simp] theorem PerDrive.get_map {α β : Type} (f : α → β) (p : PerDrive α) (i : DriveNo) : (p.map f).get i = f (p.get i) := by
  cases i <;> rfl


@[simp] theorem PerEngine.get_set {α : Type} (p : PerEngine α) (i j : EngineNo) (x : α) :
    (p.set i x).get j = if j = i then x else p.get j := by
  cases i <;> cases j <;> rfl

@[simp] theorem PerEngine.get_const {α : Type} (x : α) (i : EngineNo) : (PerEngine.const x).get i = x := by
  cases i <;> rfl

theorem PerEngine.ext_get {α : Type} {p q : PerEngine α} (h : ∀ i, p.get i = q.get i) : p = q := by
  cases p; cases q
  simp only [PerEngine.mk.injEq]
  refine ⟨h .e0, h .e1⟩

@[simp] theorem PerEngine.set_get {α : Type} (p : PerEngine α) (i : EngineNo) : p.set i (p.get i) = p := by
  cases i <;> rfl

@[simp] theorem PerEngine.set_set {α : Type} (p : PerEngine α) (i : EngineNo) (x y : α) : (p.set i x).set i y = p.set i y := by
  cases i <;> rfl


@[simp] theorem Link.mem_all (l : Link) : l ∈ Link.all := by cases l <;> decide
@[simp] theorem HostNo.mem_all (h : HostNo) : h ∈ HostNo.all := by cases h <;> decide
@[simp] theorem DriveNo.mem_all (d : DriveNo) : d ∈ DriveNo.all := by cases d <;> decide
@[simp] theorem EngineNo.mem_all (e : EngineNo) : e ∈ EngineNo.all := by cases e <;> decide

end Sys2Proof

namespace Sys2Proof.Machine

/-! ### `updDrive` -/

@[simp] theorem State.updDrive_mode (s : State) (d : DriveNo) (f : Drive → Drive) : (s.updDrive d f).mode = s.mode := rfl
@[simp] theorem State.updDrive_time (s : State) (d : DriveNo) (f : Drive → Drive) : (s.updDrive d f).time = s.time := rfl
@[simp] theorem State.updDrive_links (s : State) (d : DriveNo) (f : Drive → Drive) : (s.updDrive d f).links = s.links := rfl
@[simp] theorem State.updDrive_hosts (s : State) (d : DriveNo) (f : Drive → Drive) : (s.updDrive d f).hosts = s.hosts := rfl
@[simp] theorem State.updDrive_fences (s : State) (d : DriveNo) (f : Drive → Drive) : (s.updDrive d f).fences = s.fences := rfl
@[simp] theorem State.updDrive_engines (s : State) (d : DriveNo) (f : Drive → Drive) : (s.updDrive d f).engines = s.engines := rfl
@[simp] theorem State.updDrive_copy (s : State) (d : DriveNo) (f : Drive → Drive) : (s.updDrive d f).copy = s.copy := rfl
@[simp] theorem State.updDrive_history (s : State) (d : DriveNo) (f : Drive → Drive) : (s.updDrive d f).history = s.history := rfl
@[simp] theorem State.updDrive_overflow (s : State) (d : DriveNo) (f : Drive → Drive) : (s.updDrive d f).overflow = s.overflow := rfl
@[simp] theorem State.updDrive_staging (s : State) (d : DriveNo) (f : Drive → Drive) : (s.updDrive d f).staging = s.staging := rfl
@[simp] theorem State.updDrive_settings (s : State) (d : DriveNo) (f : Drive → Drive) : (s.updDrive d f).settings = s.settings := rfl
@[simp] theorem State.updDrive_settingsLoaded (s : State) (d : DriveNo) (f : Drive → Drive) : (s.updDrive d f).settingsLoaded = s.settingsLoaded := rfl
@[simp] theorem State.updDrive_profile40 (s : State) (d : DriveNo) (f : Drive → Drive) : (s.updDrive d f).profile40 = s.profile40 := rfl
@[simp] theorem State.updDrive_profile80 (s : State) (d : DriveNo) (f : Drive → Drive) : (s.updDrive d f).profile80 = s.profile80 := rfl
@[simp] theorem State.updDrive_resetting (s : State) (d : DriveNo) (f : Drive → Drive) : (s.updDrive d f).resetting = s.resetting := rfl
@[simp] theorem State.updDrive_nextRequest (s : State) (d : DriveNo) (f : Drive → Drive) : (s.updDrive d f).nextRequest = s.nextRequest := rfl
@[simp] theorem State.updDrive_nextChain (s : State) (d : DriveNo) (f : Drive → Drive) : (s.updDrive d f).nextChain = s.nextChain := rfl
@[simp] theorem State.updDrive_freeCount (s : State) (d : DriveNo) (f : Drive → Drive) : (s.updDrive d f).freeCount = s.freeCount := rfl
@[simp] theorem State.updDrive_pending (s : State) (d : DriveNo) (f : Drive → Drive) : (s.updDrive d f).pending = s.pending := rfl
@[simp] theorem State.updDrive_link (s : State) (d : DriveNo) (f : Drive → Drive) (k : Link) : (s.updDrive d f).link k = s.link k := rfl
@[simp] theorem State.updDrive_host (s : State) (d : DriveNo) (f : Drive → Drive) (k : HostNo) : (s.updDrive d f).host k = s.host k := rfl
@[simp] theorem State.updDrive_engine (s : State) (d : DriveNo) (f : Drive → Drive) (k : EngineNo) : (s.updDrive d f).engine k = s.engine k := rfl
@[simp] theorem State.updDrive_drive (s : State) (d : DriveNo) (f : Drive → Drive) (k : DriveNo) :
    (s.updDrive d f).drive k = if k = d then f (s.drive d) else s.drive k := by
  simp [State.updDrive, State.drive]

/-! ### `updLink` -/

@[simp] theorem State.updLink_mode (s : State) (l : Link) (f : LinkPort → LinkPort) : (s.updLink l f).mode = s.mode := rfl
@[simp] theorem State.updLink_time (s : State) (l : Link) (f : LinkPort → LinkPort) : (s.updLink l f).time = s.time := rfl
@[simp] theorem State.updLink_hosts (s : State) (l : Link) (f : LinkPort → LinkPort) : (s.updLink l f).hosts = s.hosts := rfl
@[simp] theorem State.updLink_fences (s : State) (l : Link) (f : LinkPort → LinkPort) : (s.updLink l f).fences = s.fences := rfl
@[simp] theorem State.updLink_drives (s : State) (l : Link) (f : LinkPort → LinkPort) : (s.updLink l f).drives = s.drives := rfl
@[simp] theorem State.updLink_engines (s : State) (l : Link) (f : LinkPort → LinkPort) : (s.updLink l f).engines = s.engines := rfl
@[simp] theorem State.updLink_copy (s : State) (l : Link) (f : LinkPort → LinkPort) : (s.updLink l f).copy = s.copy := rfl
@[simp] theorem State.updLink_history (s : State) (l : Link) (f : LinkPort → LinkPort) : (s.updLink l f).history = s.history := rfl
@[simp] theorem State.updLink_overflow (s : State) (l : Link) (f : LinkPort → LinkPort) : (s.updLink l f).overflow = s.overflow := rfl
@[simp] theorem State.updLink_staging (s : State) (l : Link) (f : LinkPort → LinkPort) : (s.updLink l f).staging = s.staging := rfl
@[simp] theorem State.updLink_settings (s : State) (l : Link) (f : LinkPort → LinkPort) : (s.updLink l f).settings = s.settings := rfl
@[simp] theorem State.updLink_settingsLoaded (s : State) (l : Link) (f : LinkPort → LinkPort) : (s.updLink l f).settingsLoaded = s.settingsLoaded := rfl
@[simp] theorem State.updLink_profile40 (s : State) (l : Link) (f : LinkPort → LinkPort) : (s.updLink l f).profile40 = s.profile40 := rfl
@[simp] theorem State.updLink_profile80 (s : State) (l : Link) (f : LinkPort → LinkPort) : (s.updLink l f).profile80 = s.profile80 := rfl
@[simp] theorem State.updLink_resetting (s : State) (l : Link) (f : LinkPort → LinkPort) : (s.updLink l f).resetting = s.resetting := rfl
@[simp] theorem State.updLink_nextRequest (s : State) (l : Link) (f : LinkPort → LinkPort) : (s.updLink l f).nextRequest = s.nextRequest := rfl
@[simp] theorem State.updLink_nextChain (s : State) (l : Link) (f : LinkPort → LinkPort) : (s.updLink l f).nextChain = s.nextChain := rfl
@[simp] theorem State.updLink_freeCount (s : State) (l : Link) (f : LinkPort → LinkPort) : (s.updLink l f).freeCount = s.freeCount := rfl
@[simp] theorem State.updLink_pending (s : State) (l : Link) (f : LinkPort → LinkPort) : (s.updLink l f).pending = s.pending := rfl
@[simp] theorem State.updLink_drive (s : State) (l : Link) (f : LinkPort → LinkPort) (k : DriveNo) : (s.updLink l f).drive k = s.drive k := rfl
@[simp] theorem State.updLink_host (s : State) (l : Link) (f : LinkPort → LinkPort) (k : HostNo) : (s.updLink l f).host k = s.host k := rfl
@[simp] theorem State.updLink_engine (s : State) (l : Link) (f : LinkPort → LinkPort) (k : EngineNo) : (s.updLink l f).engine k = s.engine k := rfl
@[simp] theorem State.updLink_link (s : State) (l : Link) (f : LinkPort → LinkPort) (k : Link) :
    (s.updLink l f).link k = if k = l then f (s.link l) else s.link k := by
  simp [State.updLink, State.link]

/-! ### `updHost` -/

@[simp] theorem State.updHost_mode (s : State) (h : HostNo) (f : HostState → HostState) : (s.updHost h f).mode = s.mode := rfl
@[simp] theorem State.updHost_time (s : State) (h : HostNo) (f : HostState → HostState) : (s.updHost h f).time = s.time := rfl
@[simp] theorem State.updHost_links (s : State) (h : HostNo) (f : HostState → HostState) : (s.updHost h f).links = s.links := rfl
@[simp] theorem State.updHost_fences (s : State) (h : HostNo) (f : HostState → HostState) : (s.updHost h f).fences = s.fences := rfl
@[simp] theorem State.updHost_drives (s : State) (h : HostNo) (f : HostState → HostState) : (s.updHost h f).drives = s.drives := rfl
@[simp] theorem State.updHost_engines (s : State) (h : HostNo) (f : HostState → HostState) : (s.updHost h f).engines = s.engines := rfl
@[simp] theorem State.updHost_copy (s : State) (h : HostNo) (f : HostState → HostState) : (s.updHost h f).copy = s.copy := rfl
@[simp] theorem State.updHost_history (s : State) (h : HostNo) (f : HostState → HostState) : (s.updHost h f).history = s.history := rfl
@[simp] theorem State.updHost_overflow (s : State) (h : HostNo) (f : HostState → HostState) : (s.updHost h f).overflow = s.overflow := rfl
@[simp] theorem State.updHost_staging (s : State) (h : HostNo) (f : HostState → HostState) : (s.updHost h f).staging = s.staging := rfl
@[simp] theorem State.updHost_settings (s : State) (h : HostNo) (f : HostState → HostState) : (s.updHost h f).settings = s.settings := rfl
@[simp] theorem State.updHost_settingsLoaded (s : State) (h : HostNo) (f : HostState → HostState) : (s.updHost h f).settingsLoaded = s.settingsLoaded := rfl
@[simp] theorem State.updHost_profile40 (s : State) (h : HostNo) (f : HostState → HostState) : (s.updHost h f).profile40 = s.profile40 := rfl
@[simp] theorem State.updHost_profile80 (s : State) (h : HostNo) (f : HostState → HostState) : (s.updHost h f).profile80 = s.profile80 := rfl
@[simp] theorem State.updHost_resetting (s : State) (h : HostNo) (f : HostState → HostState) : (s.updHost h f).resetting = s.resetting := rfl
@[simp] theorem State.updHost_nextRequest (s : State) (h : HostNo) (f : HostState → HostState) : (s.updHost h f).nextRequest = s.nextRequest := rfl
@[simp] theorem State.updHost_nextChain (s : State) (h : HostNo) (f : HostState → HostState) : (s.updHost h f).nextChain = s.nextChain := rfl
@[simp] theorem State.updHost_freeCount (s : State) (h : HostNo) (f : HostState → HostState) : (s.updHost h f).freeCount = s.freeCount := rfl
@[simp] theorem State.updHost_pending (s : State) (h : HostNo) (f : HostState → HostState) : (s.updHost h f).pending = s.pending := rfl
@[simp] theorem State.updHost_drive (s : State) (h : HostNo) (f : HostState → HostState) (k : DriveNo) : (s.updHost h f).drive k = s.drive k := rfl
@[simp] theorem State.updHost_link (s : State) (h : HostNo) (f : HostState → HostState) (k : Link) : (s.updHost h f).link k = s.link k := rfl
@[simp] theorem State.updHost_engine (s : State) (h : HostNo) (f : HostState → HostState) (k : EngineNo) : (s.updHost h f).engine k = s.engine k := rfl
@[simp] theorem State.updHost_host (s : State) (h : HostNo) (f : HostState → HostState) (k : HostNo) :
    (s.updHost h f).host k = if k = h then (s.host h).map f else s.host k := by
  simp [State.updHost, State.host]

/-! ### `updEngine` -/

@[simp] theorem State.updEngine_mode (s : State) (e : EngineNo) (f : Engine → Engine) : (s.updEngine e f).mode = s.mode := rfl
@[simp] theorem State.updEngine_time (s : State) (e : EngineNo) (f : Engine → Engine) : (s.updEngine e f).time = s.time := rfl
@[simp] theorem State.updEngine_links (s : State) (e : EngineNo) (f : Engine → Engine) : (s.updEngine e f).links = s.links := rfl
@[simp] theorem State.updEngine_hosts (s : State) (e : EngineNo) (f : Engine → Engine) : (s.updEngine e f).hosts = s.hosts := rfl
@[simp] theorem State.updEngine_fences (s : State) (e : EngineNo) (f : Engine → Engine) : (s.updEngine e f).fences = s.fences := rfl
@[simp] theorem State.updEngine_drives (s : State) (e : EngineNo) (f : Engine → Engine) : (s.updEngine e f).drives = s.drives := rfl
@[simp] theorem State.updEngine_copy (s : State) (e : EngineNo) (f : Engine → Engine) : (s.updEngine e f).copy = s.copy := rfl
@[simp] theorem State.updEngine_history (s : State) (e : EngineNo) (f : Engine → Engine) : (s.updEngine e f).history = s.history := rfl
@[simp] theorem State.updEngine_overflow (s : State) (e : EngineNo) (f : Engine → Engine) : (s.updEngine e f).overflow = s.overflow := rfl
@[simp] theorem State.updEngine_staging (s : State) (e : EngineNo) (f : Engine → Engine) : (s.updEngine e f).staging = s.staging := rfl
@[simp] theorem State.updEngine_settings (s : State) (e : EngineNo) (f : Engine → Engine) : (s.updEngine e f).settings = s.settings := rfl
@[simp] theorem State.updEngine_settingsLoaded (s : State) (e : EngineNo) (f : Engine → Engine) : (s.updEngine e f).settingsLoaded = s.settingsLoaded := rfl
@[simp] theorem State.updEngine_profile40 (s : State) (e : EngineNo) (f : Engine → Engine) : (s.updEngine e f).profile40 = s.profile40 := rfl
@[simp] theorem State.updEngine_profile80 (s : State) (e : EngineNo) (f : Engine → Engine) : (s.updEngine e f).profile80 = s.profile80 := rfl
@[simp] theorem State.updEngine_resetting (s : State) (e : EngineNo) (f : Engine → Engine) : (s.updEngine e f).resetting = s.resetting := rfl
@[simp] theorem State.updEngine_nextRequest (s : State) (e : EngineNo) (f : Engine → Engine) : (s.updEngine e f).nextRequest = s.nextRequest := rfl
@[simp] theorem State.updEngine_nextChain (s : State) (e : EngineNo) (f : Engine → Engine) : (s.updEngine e f).nextChain = s.nextChain := rfl
@[simp] theorem State.updEngine_freeCount (s : State) (e : EngineNo) (f : Engine → Engine) : (s.updEngine e f).freeCount = s.freeCount := rfl
@[simp] theorem State.updEngine_pending (s : State) (e : EngineNo) (f : Engine → Engine) : (s.updEngine e f).pending = s.pending := rfl
@[simp] theorem State.updEngine_drive (s : State) (e : EngineNo) (f : Engine → Engine) (k : DriveNo) : (s.updEngine e f).drive k = s.drive k := rfl
@[simp] theorem State.updEngine_link (s : State) (e : EngineNo) (f : Engine → Engine) (k : Link) : (s.updEngine e f).link k = s.link k := rfl
@[simp] theorem State.updEngine_host (s : State) (e : EngineNo) (f : Engine → Engine) (k : HostNo) : (s.updEngine e f).host k = s.host k := rfl
@[simp] theorem State.updEngine_engine (s : State) (e : EngineNo) (f : Engine → Engine) (k : EngineNo) :
    (s.updEngine e f).engine k = if k = e then f (s.engine e) else s.engine k := by
  simp [State.updEngine, State.engine]


/-- Two states are equal when their parts are. -/
theorem State.ext_parts {s t : State} (hd : ∀ d, s.drive d = t.drive d) (hl : ∀ l, s.link l = t.link l)
    (hh : ∀ h, s.host h = t.host h) (he : ∀ e, s.engine e = t.engine e)
    (rest : { s with drives := t.drives, links := t.links, hosts := t.hosts, engines := t.engines } = t) : s = t := by
  have e1 : s.drives = t.drives := PerDrive.ext_get hd
  have e2 : s.links = t.links := PerLink.ext_get hl
  have e3 : s.hosts = t.hosts := PerHost.ext_get hh
  have e4 : s.engines = t.engines := PerEngine.ext_get he
  rw [← rest, ← e1, ← e2, ← e3, ← e4]

end Sys2Proof.Machine
end

