-- ==== Sys2Proof/Laws/Ops.lean ====
section
/-! SUPPORT. The shared operations on requests, copies, drives and engines: what each leaves alone. `State.tables` gathers
what no operation inside a command touches, `State.outer` adds links, engines and mode, which the operations on a drive
queue leave. One lemma for each operation; a field's own frame follows by `congrArg`. -/
namespace Sys2Proof.Machine

/-- What only service orders, acceptance and the clock change. -/
structure Tables where
  time : Time
  fences : PerHost (PerDrive (List Extent))
  overflow : Nat
  staging : Option Staging
  settings : Settings
  settingsLoaded : Bool
  profile40 : Option Profile
  profile80 : Option Profile
  nextChain : Nat
  pending : List Instr

/-- The tables of a state. -/
def State.tables (s : State) : Tables :=
  ⟨s.time, s.fences, s.overflow, s.staging, s.settings, s.settingsLoaded, s.profile40, s.profile80, s.nextChain, s.pending⟩

/-- What lies outside the drive queues, the report unit, the copy and the history. -/
structure Outer where
  tables : Tables
  mode : Mode
  resetting : Bool
  links : PerLink LinkPort
  engines : PerEngine Engine

/-- The outer part of a state. -/
def State.outer (s : State) : Outer := ⟨s.tables, s.mode, s.resetting, s.links, s.engines⟩

theorem State.tables_of_outer {s t : State} (h : s.outer = t.outer) : s.tables = t.tables := congrArg Outer.tables h
theorem State.links_of_outer {s t : State} (h : s.outer = t.outer) : s.links = t.links := congrArg Outer.links h
theorem State.engines_of_outer {s t : State} (h : s.outer = t.outer) : s.engines = t.engines := congrArg Outer.engines h
theorem State.mode_of_outer {s t : State} (h : s.outer = t.outer) : s.mode = t.mode := congrArg Outer.mode h

/-- A fold of steps that each keep a part of the state keeps it. -/
theorem foldl_keeps {α β γ : Type} (g : γ → β) (f : γ → α → γ) (h : ∀ s x, g (f s x) = g s) (xs : List α) (s : γ) :
    g (xs.foldl f s) = g s := by
  induction xs generalizing s with
  | nil => rfl
  | cons x xs ih => rw [List.foldl_cons, ih, h]

/-! ### Updates -/

@[simp] theorem State.updDrive_outer (s : State) (d : DriveNo) (f : Drive → Drive) : (s.updDrive d f).outer = s.outer := rfl
@[simp] theorem State.updHost_outer (s : State) (h : HostNo) (f : HostState → HostState) : (s.updHost h f).outer = s.outer := rfl
@[simp] theorem State.updLink_tables (s : State) (l : Link) (f : LinkPort → LinkPort) : (s.updLink l f).tables = s.tables := rfl
@[simp] theorem State.updEngine_tables (s : State) (e : EngineNo) (f : Engine → Engine) : (s.updEngine e f).tables = s.tables := rfl
@[simp] theorem State.updRequest_outer (s : State) (d : DriveNo) (id : Nat) (f : Request → Request) :
    (s.updRequest d id f).outer = s.outer := rfl

/-! ### The report unit: hosts alone change -/

@[simp] theorem State.tell_outer (s : State) (h : HostNo) (r : Record) : (s.tell h r).outer = s.outer := rfl
@[simp] theorem State.raise_outer (s : State) (c : EventClass) (d : DriveNo) (ev : CheckEvent) (r : Record) :
    (s.raise c d ev r).outer = s.outer := rfl
@[simp] theorem State.unreserve_outer (s : State) (h : HostNo) : (s.unreserve h).outer = s.outer := rfl
@[simp] theorem State.placeCompletion_outer (s : State) (h : HostNo) (c : Completion) :
    (s.placeCompletion h c).outer = s.outer := rfl
@[simp] theorem State.noticeCondition_outer (s : State) (d : DriveNo) (c : Condition) :
    (s.noticeCondition d c).outer = s.outer := by
  unfold State.noticeCondition; dsimp only; split <;> simp
@[simp] theorem State.raiseVoidTrack_outer (s : State) (d : DriveNo) (t : Track) (a n : Nat) (c : VoidCause) :
    (s.raiseVoidTrack d t a n c).outer = s.outer := rfl
@[simp] theorem State.raiseSpared_outer (s : State) (d : DriveNo) (t : Track) (f : Form) (e : Entry) (n : Nat) :
    (s.raiseSpared d t f e n).outer = s.outer := rfl
@[simp] theorem State.abortNotice_outer (s : State) (d : DriveNo) (x : Option (Track × Nat × Nat)) :
    (s.abortNotice d x).outer = s.outer := by
  unfold State.abortNotice; split <;> simp

/-- A completion changes the queue and check record of its host and no drive (R154). -/
@[simp] theorem State.placeCompletion_drive (s : State) (h : HostNo) (c : Completion) (e : DriveNo) :
    (s.placeCompletion h c).drive e = s.drive e := rfl
@[simp] theorem State.unreserve_drive (s : State) (h : HostNo) (e : DriveNo) : (s.unreserve h).drive e = s.drive e := rfl

/-! ### The drive queue -/

@[simp] theorem State.selectionEvent_outer (s : State) (d : DriveNo) : (s.selectionEvent d).outer = s.outer := rfl
@[simp] theorem State.append_outer (s : State) (d : DriveNo) (r : Request) : (s.append d r).outer = s.outer := rfl
@[simp] theorem State.placeAuto_outer (s : State) (d : DriveNo) (x : Deferred) : (s.placeAuto d x).outer = s.outer := rfl
@[simp] theorem State.askAuto_outer (s : State) (d : DriveNo) (x : Deferred) : (s.askAuto d x).outer = s.outer := by
  unfold State.askAuto; split <;> simp
@[simp] theorem State.refill_outer (s : State) (d : DriveNo) : (s.refill d).outer = s.outer := by
  unfold State.refill; split <;> simp
@[simp] theorem State.leave_outer (s : State) (d : DriveNo) (id : Nat) : (s.leave d id).outer = s.outer := by
  unfold State.leave; dsimp only; split <;> (try split) <;> simp
@[simp] theorem State.patrolLeaves_outer (s : State) (d : DriveNo) (id : Nat) (b : Bool) :
    (s.patrolLeaves d id b).outer = s.outer := by simp [State.patrolLeaves]
@[simp] theorem State.clearPending_outer (s : State) (d : DriveNo) (t : Track) : (s.clearPending d t).outer = s.outer := rfl
@[simp] theorem State.forgetTrack_outer (s : State) (d : DriveNo) (t : Track) : (s.forgetTrack d t).outer = s.outer := rfl
@[simp] theorem State.clearKey_outer (s : State) (d : DriveNo) (k : Option Track) : (s.clearKey d k).outer = s.outer := by
  unfold State.clearKey; split <;> simp
@[simp] theorem State.removeSilently_outer (s : State) (d : DriveNo) (r : Request) :
    (s.removeSilently d r).outer = s.outer := by
  unfold State.removeSilently; dsimp only; split <;> simp
@[simp] theorem State.endHost_outer (s : State) (d : DriveNo) (r : Request) (c : Completion) :
    (s.endHost d r c).outer = s.outer := by
  unfold State.endHost; split
  · simp
  · split <;> simp
@[simp] theorem State.cancelMembers_outer (s : State) (d : DriveNo) (id : Nat) (ps : List Nat) :
    (s.cancelMembers d id ps).outer = s.outer := by
  refine foldl_keeps State.outer _ (fun s x => ?_) ps s
  dsimp only; split <;> simp
@[simp] theorem State.chainGoesOn_outer (s : State) (d : DriveNo) (r : Request) (st : Status) :
    (s.chainGoesOn d r st).outer = s.outer := by
  unfold State.chainGoesOn; split
  · rfl
  · split
    · split <;> simp
    · simp
@[simp] theorem State.endWithChain_outer (s : State) (d : DriveNo) (r : Request) (c : Completion) :
    (s.endWithChain d r c).outer = s.outer := by
  unfold State.endWithChain; dsimp only; split <;> simp

/-- What a request leaving a queue does to the other drives: nothing (R64, R142). -/
theorem State.leave_drive_of_ne (s : State) {d e : DriveNo} (id : Nat) (h : e ≠ d) : (s.leave d id).drive e = s.drive e := by
  unfold State.leave; dsimp only
  split
  · split
    · unfold State.refill; split <;> simp [State.placeAuto, State.append, State.selectionEvent, State.drive, State.updDrive, h]
    · simp [h]
  · rfl

/-- A request leaves its queue without a refill: the rest of the queue stands in its order (R64). -/
theorem State.leave_queue (s : State) (d : DriveNo) (id : Nat) (h : (s.drive d).queue.length ≠ Config.queueLimit) :
    ((s.leave d id).drive d).queue = (s.drive d).queue.filter (fun r => r.id != id) := by
  unfold State.leave; dsimp only
  split
  · simp
  · rename_i hq
    symm
    rw [List.filter_eq_self]
    intro r hr
    simp only [List.any_eq_true, not_exists, not_and] at hq
    simpa using hq r hr

theorem State.endHost_drive_of_ne (s : State) {d e : DriveNo} (r : Request) (c : Completion) (h : e ≠ d) :
    (s.endHost d r c).drive e = s.drive e := by
  unfold State.endHost State.removeSilently
  split
  · dsimp only; split <;> simp [State.leave_drive_of_ne, h]
  · split <;> simp [State.leave_drive_of_ne, h]

/-! ### Copies -/

@[simp] theorem State.bufferFree_outer (s : State) : s.bufferFree.outer = s.outer := rfl
@[simp] theorem State.unhold_outer (s : State) (d : DriveNo) (t : Track) : (s.unhold d t).outer = s.outer := by
  unfold State.unhold; dsimp only; split <;> simp
@[simp] theorem State.settleCopy_outer (s : State) (c : CopyRecord) : (s.settleCopy c).outer = s.outer := by
  unfold State.settleCopy
  simp [foldl_keeps State.outer]
@[simp] theorem State.copyNotices_outer (s : State) (c : CopyRecord) : (s.copyNotices c).outer = s.outer := by
  unfold State.copyNotices; split
  · rfl
  · dsimp only; split <;> simp
@[simp] theorem State.endCopy_outer (s : State) (c : CopyRecord) (r : Request) : (s.endCopy c r).outer = s.outer := by
  unfold State.endCopy; dsimp only; split <;> simp
@[simp] theorem State.abortCopy_outer (s : State) (c : CopyRecord) : (s.abortCopy c).1.outer = s.outer := by
  unfold State.abortCopy; dsimp only; split <;> simp
@[simp] theorem State.beginNew_outer (s : State) (d : DriveNo) (r : Request) (a : Nat) : (s.beginNew d r a).outer = s.outer := rfl
@[simp] theorem State.beginFill_outer (s : State) (d : DriveNo) (r : Request) (e : Entry) (v : SectorSet) :
    (s.beginFill d r e v).outer = s.outer := rfl

theorem State.leave_copy (s : State) (d : DriveNo) (id : Nat) : (s.leave d id).copy = s.copy := by
  unfold State.leave; dsimp only
  split
  · split
    · unfold State.refill; split <;> rfl
    · rfl
  · rfl
@[simp] theorem State.bufferFree_copy (s : State) : s.bufferFree.copy = none := rfl
@[simp] theorem State.unhold_copy (s : State) (d : DriveNo) (t : Track) : (s.unhold d t).copy = s.copy := by
  unfold State.unhold; dsimp only; split <;> rfl
/-- After the end of a copy's steps 1 to 5 the track buffer is FREE (R131). -/
theorem State.settleCopy_copy (s : State) (c : CopyRecord) : (s.settleCopy c).copy = none := by
  unfold State.settleCopy; dsimp only; simp only [State.unhold_copy, State.bufferFree_copy]
/-- After an abort the track buffer is FREE (R134). -/
theorem State.abortCopy_copy (s : State) (c : CopyRecord) : (s.abortCopy c).1.copy = none := by
  unfold State.abortCopy; rfl

/-! ### Selection -/

@[simp] theorem State.position_outer (s : State) (d : DriveNo) (id : Nat) (t : Track) : (s.position d id t).outer = s.outer := rfl
@[simp] theorem State.endAtChoice_outer (s : State) (d : DriveNo) (r : Request) (st : Status) :
    (s.endAtChoice d r st).outer = s.outer := by
  unfold State.endAtChoice; dsimp only; split <;> simp
@[simp] theorem State.beginCopy_outer (s : State) (d : DriveNo) (r : Request) : (s.beginCopy d r).outer = s.outer := by
  unfold State.beginCopy
  split
  · split
    · simp
    · dsimp only; split
      · split <;> simp
      · simp
  · split
    · split <;> simp
    · simp
@[simp] theorem State.holdForCopy_outer (s : State) (d : DriveNo) : (s.holdForCopy d).outer = s.outer := by
  unfold State.holdForCopy
  simp [foldl_keeps State.outer]
@[simp] theorem State.passUpdate_outer (s : State) (d : DriveNo) (el : List Request) (r : Request) :
    (s.passUpdate d el r).outer = s.outer := rfl
@[simp] theorem State.select_outer (s : State) (d : DriveNo) : (s.select d).outer = s.outer := by
  unfold State.select; dsimp only
  split
  · split
    · simp
    · split <;> simp
  · simp
@[simp] theorem State.patrolCheck_outer (s : State) (d : DriveNo) : (s.patrolCheck d).outer = s.outer := by
  unfold State.patrolCheck; dsimp only; split <;> simp
@[simp] theorem State.patrolChecks_outer (s : State) : s.patrolChecks.outer = s.outer := by
  refine foldl_keeps State.outer _ (fun s x => ?_) _ s
  split <;> simp
@[simp] theorem State.selectionOrder_outer (s : State) : s.selectionOrder.2.outer = s.outer := by
  unfold State.selectionOrder; split <;> rfl
@[simp] theorem State.selections_outer (n : Nat) (s : State) : (State.selections n s).outer = s.outer := by
  induction n generalizing s with
  | zero => rfl
  | succ n ih =>
    simp only [State.selections]
    split
    · rfl
    · rw [ih, State.select_outer, State.selectionOrder_outer]

/-! ### Settling -/

@[simp] theorem State.drainTest_tables (s : State) : s.drainTest.tables = s.tables := by
  unfold State.drainTest; split
  · dsimp only; split <;> rfl
  · rfl
@[simp] theorem State.drainTest_links (s : State) : s.drainTest.links = s.links := by
  unfold State.drainTest; split
  · dsimp only; split <;> rfl
  · rfl
@[simp] theorem State.drainTest_engines (s : State) : s.drainTest.engines = s.engines := by
  unfold State.drainTest; split
  · dsimp only; split <;> rfl
  · rfl
@[simp] theorem State.deliver_tables (s : State) (h : HostNo) : (s.deliver h).tables = s.tables := by
  unfold State.deliver; split
  · split
    · split <;> rfl
    · rfl
  · rfl
@[simp] theorem State.deliver_engines (s : State) (h : HostNo) : (s.deliver h).engines = s.engines := by
  unfold State.deliver; split
  · split
    · split <;> rfl
    · rfl
  · rfl
@[simp] theorem State.deliverAll_tables (s : State) : s.deliverAll.tables = s.tables :=
  foldl_keeps State.tables _ (fun s h => State.deliver_tables s h) _ s
@[simp] theorem State.deliverAll_engines (s : State) : s.deliverAll.engines = s.engines :=
  foldl_keeps State.engines _ (fun s h => State.deliver_engines s h) _ s

/-- What follows within a command changes no table: tables change by their own orders alone. -/
@[simp] theorem State.settle_tables (s : State) : s.settle.tables = s.tables := by
  simp only [State.settle, State.deliverAll_tables, State.drainTest_tables]
  exact State.tables_of_outer (by simp)
/-- What follows within a command changes no engine. -/
@[simp] theorem State.settle_engines (s : State) : s.settle.engines = s.engines := by
  simp only [State.settle, State.deliverAll_engines, State.drainTest_engines]
  exact State.engines_of_outer (by simp)

/-! ### Engines -/

@[simp] theorem State.endExchange_tables (s : State) (l : Link) : (s.endExchange l).tables = s.tables := rfl
@[simp] theorem State.release_tables (s : State) (e : EngineNo) : (s.release e).tables = s.tables := by
  unfold State.release; dsimp only; split
  · rfl
  · split <;> split <;> rfl

/-- A released engine is IDLE, and the other is as before (R86). -/
theorem State.release_engine (s : State) (e k : EngineNo) (h : (s.engine e).service.isSome = true) :
    (s.release e).engine k = if k = e then Engine.idle else s.engine k := by
  obtain ⟨v, hv⟩ := Option.isSome_iff_exists.mp h
  unfold State.release; dsimp only; rw [hv]; dsimp only
  split <;> split <;> simp [State.endExchange, State.updRequest]

/-- A drained engine is FLUSHING with no current sector and no failed reads; its buffers and what ends it stay, and the other
engine is as before (R85, R101). -/
theorem State.drain_engine (s : State) (e k : EngineNo) :
    (s.drain e).engine k = if k = e then
      { s.engine e with
        phase := .flushing, retry := 0, service := (s.engine e).service.map (fun v => { v with current := none }) }
    else s.engine k := by
  unfold State.drain Engine.flush; split <;> simp_all

@[simp] theorem State.resetDone_tables (s : State) : s.resetDone.tables = s.tables := by
  unfold State.resetDone; split <;> rfl
@[simp] theorem State.endTransfer_tables (s : State) (e : EngineNo) (v : Service) (f : Request → Completion) :
    (s.endTransfer e v f).tables = s.tables := by
  unfold State.endTransfer; dsimp only
  split
  · split
    · exact (State.tables_of_outer (by simp)).trans (State.release_tables s e)
    · exact (State.tables_of_outer (by simp)).trans (State.release_tables s e)
  · exact State.release_tables s e
@[simp] theorem State.nextTrack_outer (s : State) (d : DriveNo) (r : Request) : (s.nextTrack d r).outer = s.outer := by
  unfold State.nextTrack; split <;> simp
@[simp] theorem State.trackEnd_tables (s : State) (e : EngineNo) : (s.trackEnd e).tables = s.tables := by
  unfold State.trackEnd
  split
  · rfl
  · split
    · exact State.release_tables s e
    · split
      · simp
      · dsimp only; split
        · exact (State.tables_of_outer (by simp)).trans (State.release_tables s e)
        · exact State.release_tables s e

/-! ### Events that end an engine's work, and orientation points -/

/-- The sector boundary changes requests, queues, the copy and the engine, and none of the tables (R38, R104). -/
@[simp] theorem State.boundaryWith_tables (s : State) (e : EngineNo) : (s.boundaryWith e).1.tables = s.tables := by
  unfold State.boundaryWith; dsimp only
  split
  · rename_i v ending _ _
    have aborted : ∀ c : CopyRecord, (s.abortCopy c).1.tables = s.tables := fun c => State.tables_of_outer (by simp)
    have leaves : ∀ (u : State) (d : DriveNo) (id : Nat), (u.leave d id).tables = u.tables := fun u d id =>
      State.tables_of_outer (by simp)
    have ends : ∀ (u : State) (d : DriveNo) (r : Request) (c : Completion), (u.endWithChain d r c).tables = u.tables :=
      fun u d r c => State.tables_of_outer (by simp)
    have ends' : ∀ (u : State) (d : DriveNo) (r : Request) (c : Completion), (u.endHost d r c).tables = u.tables :=
      fun u d r c => State.tables_of_outer (by simp)
    have patrol : ∀ (u : State) (d : DriveNo) (id : Nat) (b : Bool), (u.patrolLeaves d id b).tables = u.tables :=
      fun u d id b => State.tables_of_outer (by simp)
    have drive : ∀ (u : State) (d : DriveNo) (f : Drive → Drive), (u.updDrive d f).tables = u.tables := fun _ _ _ => rfl
    rw [State.resetDone_tables, drive]
    split <;> split <;> (try split) <;> (try split) <;>
      simp only [State.release_tables, aborted, leaves, ends, ends', patrol]
  · rfl
@[simp] theorem State.boundary_tables (s : State) (e : EngineNo) : (s.boundary e).tables = s.tables := by
  unfold State.boundary; split
  · exact (State.tables_of_outer (by simp)).trans (State.boundaryWith_tables s e)
  · rfl
@[simp] theorem State.stopOrDrain_tables (s : State) (e : EngineNo) : (s.stopOrDrain e).tables = s.tables := by
  unfold State.stopOrDrain; split
  · rfl
  · simp
@[simp] theorem State.interrupt_tables (s : State) (e : EngineNo) (x : Ending) : (s.interrupt e x).tables = s.tables := by
  unfold State.interrupt; split
  · rfl
  · rw [State.stopOrDrain_tables]; rfl
/-- An orientation point served changes engines, links, and the requests and state of its drive (R78 to R80). -/
@[simp] theorem State.servePoint_tables (s : State) (d : DriveNo) : (s.servePoint d).tables = s.tables := by
  unfold State.servePoint State.atPoint State.miss State.grant
  split
  · dsimp only
    split
    · split <;> rfl
    · split
      · split <;> rfl
      · split <;> rfl
  · rfl

/-! ### Claims -/

/-- A claim handed on changes the claim of its drive and the queues of hosts (R54). -/
@[simp] theorem State.handOn_outer (s : State) (d : DriveNo) (c : ClaimCause) : (s.handOn d c).outer = s.outer := by
  unfold State.handOn; dsimp only
  split <;> split <;> (try split) <;> rfl
@[simp] theorem State.startOrphans_outer (s : State) (h : HostNo) : (s.startOrphans h).outer = s.outer := rfl
@[simp] theorem State.hostReturns_outer (s : State) (h : HostNo) : (s.hostReturns h).outer = s.outer := rfl
@[simp] theorem State.reachabilityChanged_outer (s : State) (h : HostNo) (b : Bool) :
    (s.reachabilityChanged h b).outer = s.outer := by
  unfold State.reachabilityChanged; split <;> rfl

/-- The claim of a drive after a handing on, its timer aside: the first in line holds it (R54 steps 1 to 3). -/
theorem State.handOn_holder (s : State) (d : DriveNo) (c : ClaimCause) :
    ((s.handOn d c).drive d).claim.holder = (s.drive d).claim.waiting.head? ∧
      ((s.handOn d c).drive d).claim.waiting = (s.drive d).claim.waiting.tail := by
  unfold State.handOn; dsimp only
  cases hw : (s.drive d).claim.waiting <;>
    (split <;> split <;> (try split) <;>
      simp [State.updClaim, State.tell, Claim.pass, Claim.clear, hw])

end Sys2Proof.Machine
end

