-- ==== Sys2Proof/Laws/Ports.lean ====
section
/-! SUPPORT. The operations on a link port (R22 to R27, R36): each keeps the signal and says which exchange, chain and
frame it leaves. -/
namespace Sys2Proof.Machine

@[simp] theorem LinkPort.startWait_up (n : Nat) (w : Wait) (p : LinkPort) : (LinkPort.startWait n w p).up = p.up := by
  unfold LinkPort.startWait; split <;> rfl
@[simp] theorem LinkPort.startWait_exchange (n : Nat) (w : Wait) (p : LinkPort) :
    (LinkPort.startWait n w p).exchange = p.exchange := by
  unfold LinkPort.startWait; split <;> rfl
@[simp] theorem LinkPort.startWait_chain (n : Nat) (w : Wait) (p : LinkPort) :
    (LinkPort.startWait n w p).chain = p.chain := by
  unfold LinkPort.startWait; split <;> rfl
@[simp] theorem LinkPort.startWait_offered (n : Nat) (w : Wait) (p : LinkPort) :
    (LinkPort.startWait n w p).offered = p.offered := by
  unfold LinkPort.startWait; split <;> rfl
@[simp] theorem LinkPort.startWait_toSend (n : Nat) (w : Wait) (p : LinkPort) :
    (LinkPort.startWait n w p).toSend = p.toSend := by
  unfold LinkPort.startWait; split <;> rfl
@[simp] theorem LinkPort.startWait_busyTags (n : Nat) (w : Wait) (p : LinkPort) :
    (LinkPort.startWait n w p).busyTags = p.busyTags := by
  unfold LinkPort.startWait; split <;> rfl

@[simp] theorem LinkPort.stopWait_up (p : LinkPort) : p.stopWait.up = p.up := by
  unfold LinkPort.stopWait; split <;> rfl
@[simp] theorem LinkPort.stopWait_exchange (p : LinkPort) : p.stopWait.exchange = p.exchange := by
  unfold LinkPort.stopWait; split <;> rfl
@[simp] theorem LinkPort.stopWait_chain (p : LinkPort) : p.stopWait.chain = p.chain := by
  unfold LinkPort.stopWait; split <;> rfl
@[simp] theorem LinkPort.stopWait_offered (p : LinkPort) : p.stopWait.offered = p.offered := by
  unfold LinkPort.stopWait; split <;> rfl
@[simp] theorem LinkPort.stopWait_toSend (p : LinkPort) : p.stopWait.toSend = p.toSend := by
  unfold LinkPort.stopWait; split <;> rfl
@[simp] theorem LinkPort.stopWait_busyTags (p : LinkPort) : p.stopWait.busyTags = p.busyTags := by
  unfold LinkPort.stopWait; split <;> rfl

@[simp] theorem LinkPort.boundBusy_up (n : Nat) (p : LinkPort) : (LinkPort.boundBusy n p).up = p.up := by
  unfold LinkPort.boundBusy; split <;> rfl
@[simp] theorem LinkPort.boundBusy_exchange (n : Nat) (p : LinkPort) : (LinkPort.boundBusy n p).exchange = p.exchange := by
  unfold LinkPort.boundBusy; split <;> rfl
@[simp] theorem LinkPort.boundBusy_chain (n : Nat) (p : LinkPort) : (LinkPort.boundBusy n p).chain = p.chain := by
  unfold LinkPort.boundBusy; split <;> rfl
@[simp] theorem LinkPort.boundBusy_offered (n : Nat) (p : LinkPort) : (LinkPort.boundBusy n p).offered = p.offered := by
  unfold LinkPort.boundBusy; split <;> rfl
@[simp] theorem LinkPort.boundBusy_toSend (n : Nat) (p : LinkPort) : (LinkPort.boundBusy n p).toSend = p.toSend := by
  unfold LinkPort.boundBusy; split <;> rfl
@[simp] theorem LinkPort.boundBusy_busyTags (n : Nat) (p : LinkPort) : (LinkPort.boundBusy n p).busyTags = p.busyTags := by
  unfold LinkPort.boundBusy; split <;> rfl

/-- The end of a wait stops the timer, unless it is g) that runs. -/
theorem LinkPort.stopWait_of_free {p : LinkPort} (hs : ∀ t, p.stall = some t → t.wait ≠ .linkBusy) :
    p.stopWait = { p with stall := none } := by
  unfold LinkPort.stopWait
  split
  · rename_i w h
    exact absurd rfl (hs _ h)
  · rfl

/-- Where a wait runs, it bounds a LINK-BUSY answer too (R36 g). -/
theorem LinkPort.boundBusy_of_wait {n : Nat} {p : LinkPort} (h : p.stall.isSome = true) : LinkPort.boundBusy n p = p := by
  cases hs : p.stall <;> simp_all [LinkPort.boundBusy]

/-- Where no LINK-BUSY answer is offered, there is none to bound. -/
theorem LinkPort.boundBusy_of_free {n : Nat} {p : LinkPort} (h : p.busyOffered = false) : LinkPort.boundBusy n p = p := by
  simp [LinkPort.boundBusy, h]

/-- A wait starts at once unless wait g) runs (R36). -/
theorem LinkPort.startWait_of_free {n : Nat} {w : Wait} {p : LinkPort} (hs : ∀ t, p.stall = some t → t.wait ≠ .linkBusy) :
    LinkPort.startWait n w p = { p with stall := some ⟨w, n⟩ } := by
  unfold LinkPort.startWait
  split
  · rename_i h
    exact absurd rfl (hs _ h)
  · rfl

@[simp] theorem LinkPort.pump_up (n : Nat) (p : LinkPort) : (LinkPort.pump n p).up = p.up := by
  unfold LinkPort.pump
  split
  · rfl
  · split
    · rfl
    · split <;> simp
@[simp] theorem LinkPort.pump_exchange (n : Nat) (p : LinkPort) : (LinkPort.pump n p).exchange = p.exchange := by
  unfold LinkPort.pump
  split
  · rfl
  · split
    · rfl
    · split <;> simp
@[simp] theorem LinkPort.pump_chain (n : Nat) (p : LinkPort) : (LinkPort.pump n p).chain = p.chain := by
  unfold LinkPort.pump
  split
  · rfl
  · split
    · rfl
    · split <;> simp

/-- A port where nothing waits to be offered. -/
theorem LinkPort.pump_of_nothing {n : Nat} {p : LinkPort} (hb : p.busyTags = []) (hs : p.toSend = [] ∨ p.exchange = none) :
    LinkPort.pump n p = p := by
  unfold LinkPort.pump
  split
  · rfl
  · rw [hb]
    rcases hs with h | h <;> simp [h]

theorem LinkPort.pump_of_offered {n : Nat} {p : LinkPort} {o : Offered} (h : p.offered = some o) : LinkPort.pump n p = p := by
  simp [LinkPort.pump, h]

@[simp] theorem LinkPort.openExchange_up (n : Nat) (x : Exchange) (fs : List Frame) (p : LinkPort) :
    (LinkPort.openExchange n x fs p).up = p.up := by simp [LinkPort.openExchange]
@[simp] theorem LinkPort.openExchange_exchange (n : Nat) (x : Exchange) (fs : List Frame) (p : LinkPort) :
    (LinkPort.openExchange n x fs p).exchange = some x := by simp [LinkPort.openExchange]
@[simp] theorem LinkPort.openExchange_chain (n : Nat) (x : Exchange) (fs : List Frame) (p : LinkPort) :
    (LinkPort.openExchange n x fs p).chain = p.chain := by simp [LinkPort.openExchange]
@[simp] theorem LinkPort.openExchange_isIdle (n : Nat) (x : Exchange) (fs : List Frame) (p : LinkPort) :
    (LinkPort.openExchange n x fs p).isIdle = false := by simp [LinkPort.isIdle]

@[simp] theorem LinkPort.endExchange_up (n : Nat) (p : LinkPort) : (LinkPort.endExchange n p).up = p.up := by
  unfold LinkPort.endExchange
  dsimp only
  split <;> simp [LinkPort.withdraw]
@[simp] theorem LinkPort.endExchange_exchange (n : Nat) (p : LinkPort) : (LinkPort.endExchange n p).exchange = none := by
  unfold LinkPort.endExchange
  dsimp only
  split <;> simp
@[simp] theorem LinkPort.endExchange_chain (n : Nat) (p : LinkPort) : (LinkPort.endExchange n p).chain = p.chain := by
  unfold LinkPort.endExchange
  dsimp only
  split <;> simp [LinkPort.withdraw]

@[simp] theorem LinkPort.acceptFrame_up (p : LinkPort) : p.acceptFrame.up = p.up := by
  simp [LinkPort.acceptFrame]
@[simp] theorem LinkPort.acceptFrame_exchange (p : LinkPort) : p.acceptFrame.exchange = p.exchange := by
  simp [LinkPort.acceptFrame]
@[simp] theorem LinkPort.acceptFrame_chain (p : LinkPort) : p.acceptFrame.chain = p.chain := by
  simp [LinkPort.acceptFrame]
@[simp] theorem LinkPort.answerBusy_up (n : Nat) (t : Byte) (p : LinkPort) : (LinkPort.answerBusy n t p).up = p.up := by
  simp [LinkPort.answerBusy]
@[simp] theorem LinkPort.answerBusy_exchange (n : Nat) (t : Byte) (p : LinkPort) :
    (LinkPort.answerBusy n t p).exchange = p.exchange := by simp [LinkPort.answerBusy]
@[simp] theorem LinkPort.answerBusy_chain (n : Nat) (t : Byte) (p : LinkPort) :
    (LinkPort.answerBusy n t p).chain = p.chain := by simp [LinkPort.answerBusy]

/-! ### A link free for an answer -/

/-- The parts of `LinkPort.free`. -/
theorem LinkPort.free_iff (p : LinkPort) :
    p.free = true ↔ p.up = true ∧ p.exchange = none ∧ p.offered = none ∧ p.busyTags = [] ∧
      (∀ t, p.stall = some t → t.wait ≠ .linkBusy) := by
  simp only [LinkPort.free, LinkPort.isIdle, Bool.and_eq_true, Option.isNone_iff_eq_none, List.isEmpty_iff, and_assoc]
  refine and_congr_right fun _ => and_congr_right fun _ => and_congr_right fun _ => and_congr_right fun _ => ?_
  cases h : p.stall with
  | none => simp
  | some t => simp

theorem LinkPort.busyOffered_of_none {p : LinkPort} (h : p.offered = none) : p.busyOffered = false := by
  simp [LinkPort.busyOffered, h]

/-- An exchange that opens with a frame on a free link: the frame is offered and its wait runs (R22, R36). -/
theorem LinkPort.openExchange_frame {n : Nat} {x : Exchange} {f : Frame} {fs : List Frame} {p : LinkPort}
    (h : p.free = true) :
    LinkPort.openExchange n x (f :: fs) p =
      { p with exchange := some x, offered := some (.frame f), toSend := fs, stall := some ⟨waitFor x f, n⟩ } := by
  obtain ⟨-, -, ho, hb, hs⟩ := (LinkPort.free_iff p).mp h
  unfold LinkPort.openExchange
  rw [LinkPort.stopWait_of_free hs]
  simp [LinkPort.pump, ho, hb, LinkPort.startWait, LinkPort.boundBusy]

/-- The ANSWER and what follows it are offered in an order exchange just opened on a free link. -/
theorem LinkPort.offer_answer {n : Nat} {x : OrderExchange} {a : Answer} {rest : List Frame} {p : LinkPort}
    (h : p.free = true) :
    LinkPort.boundBusy n (LinkPort.pump n { p.stopWait with exchange := some (.order x), toSend := [] ++ (.answer a :: rest) }) =
      { p with exchange := some (.order x), offered := some (.frame (.answer a)), toSend := rest, stall := some ⟨.answer, n⟩ } := by
  obtain ⟨-, -, ho, hb, hs⟩ := (LinkPort.free_iff p).mp h
  rw [LinkPort.stopWait_of_free hs]
  simp [LinkPort.pump, ho, hb, LinkPort.startWait, LinkPort.boundBusy, waitFor]

end Sys2Proof.Machine
end

