-- ==== Sys2Proof/Laws/Settle.lean ====
section
/-! SUPPORT. What `settle` does: nothing in a quiet state, and in any state only selections, patrol checks, the drain test
and report delivery. -/
namespace Sys2Proof.Machine

/-! ### Quiet states -/

theorem State.calm_iff (s : State) :
    s.calm = true ↔ ∀ d, (s.drive d).selEvent = false ∧ (s.drive d).patrolEvent = false := by
  simp only [State.calm, List.all_eq_true, Bool.and_eq_true, Bool.not_eq_true']
  exact ⟨fun h d => h d (DriveNo.mem_all d), fun h d _ => h d⟩

theorem State.quiet_iff (s : State) :
    s.quiet = true ↔ s.calm = true ∧ s.drainDue = false ∧ s.reportsOffered = true := by
  simp [State.quiet, and_assoc]

/-- No drive contends for the track buffer in a calm state. -/
theorem State.selectionOrder_of_calm {s : State} (h : s.calm = true) : s.selectionOrder = (DriveNo.all, s) := by
  have hc : ∀ d, (s.drive d).contends = false := fun d => by
    simp [Drive.contends, ((State.calm_iff s).mp h d).1]
  simp [State.selectionOrder, hc]

/-- No selection is made in a calm state. -/
theorem State.selections_of_calm {s : State} (h : s.calm = true) (n : Nat) : State.selections n s = s := by
  cases n with
  | zero => rfl
  | succ n =>
    have hs : ∀ d, (s.drive d).selEvent = false := fun d => ((State.calm_iff s).mp h d).1
    have hf : DriveNo.all.find? (fun d => (s.drive d).selEvent) = none := by
      simp [hs]
    simp only [State.selections, State.selectionOrder_of_calm h, hf]

/-- No patrol check is made in a calm state. -/
theorem State.patrolChecks_of_calm {s : State} (h : s.calm = true) : s.patrolChecks = s := by
  have hp : ∀ d, (s.drive d).patrolEvent = false := fun d => ((State.calm_iff s).mp h d).2
  simp [State.patrolChecks, DriveNo.all, hp]

/-- From a calm state only the drain test and report delivery follow a command. -/
theorem State.settle_of_calm {s : State} (h : s.calm = true) : s.settle = s.drainTest.deliverAll := by
  simp only [State.settle, State.selections_of_calm h, State.patrolChecks_of_calm h]

theorem State.drainTest_of_not_due {s : State} (h : s.drainDue = false) : s.drainTest = s := by
  unfold State.drainTest
  rw [if_neg]
  simp only [State.drainDue, Bool.and_eq_false_iff, decide_eq_false_iff_not, Bool.not_eq_false'] at h
  rintro ⟨h1, h2, h3⟩
  rcases h with (h | h) | h
  · exact h h1
  · rw [h2] at h; cases h
  · rw [h3] at h; cases h

/-- The drain test leaves nothing due. -/
theorem State.drainTest_drainDue (s : State) : s.drainTest.drainDue = false := by
  unfold State.drainTest
  split
  · have : ∀ (t : State) (h : HostNo) (r : Record), (t.tell h r).mode = t.mode := fun _ _ _ => rfl
    dsimp only
    split <;> simp [State.drainDue, this]
  · rename_i h
    simp only [State.drainDue, Bool.and_eq_false_iff, decide_eq_false_iff_not, Bool.not_eq_false']
    by_cases h1 : s.mode = .draining
    · by_cases h2 : s.resetting = true
      · exact .inl (.inr h2)
      · by_cases h3 : s.drained = true
        · exact absurd ⟨h1, by simpa using h2, h3⟩ h
        · exact .inr (by simpa using h3)
    · exact .inl (.inl h1)

/-! ### Report delivery -/

/-- A host that has nothing to deliver, or nowhere to deliver it. -/
def State.offersNothing (s : State) (h : HostNo) : Prop :=
  ∀ x, s.host h = some x → x.queue = [] ∨ x.reportLink.isSome = true ∨ s.idleLink h = none

theorem State.reportsOffered_iff (s : State) : s.reportsOffered = true ↔ ∀ h, s.offersNothing h := by
  simp only [State.reportsOffered, List.all_eq_true, State.offersNothing]
  constructor
  · intro H h x hx
    have := H h (HostNo.mem_all h)
    simp only [hx, Bool.or_eq_true, List.isEmpty_iff, Option.isNone_iff_eq_none] at this
    tauto
  · intro H h _
    cases hx : s.host h with
    | none => rfl
    | some x =>
      have := H h x hx
      simp only [Bool.or_eq_true, List.isEmpty_iff, Option.isNone_iff_eq_none]
      tauto

/-- Delivery opens nothing for a host that offers nothing. -/
theorem State.deliver_of_offersNothing {s : State} {h : HostNo} (H : s.offersNothing h) : s.deliver h = s := by
  unfold State.deliver
  split
  · rename_i x hx
    split
    · rename_i r rest hq hl
      rcases H x hx with h1 | h1 | h1
      · simp [hq] at h1
      · simp [hl] at h1
      · simp [h1]
    · rfl
  · rfl

theorem State.deliverAll_of_offered {s : State} (h : s.reportsOffered = true) : s.deliverAll = s := by
  have H := (State.reportsOffered_iff s).mp h
  simp [State.deliverAll, HostNo.all, State.deliver_of_offersNothing (H _)]

/-- Nothing follows a command from a quiet state. -/
theorem State.settle_of_quiet {s : State} (h : s.quiet = true) : s.settle = s := by
  obtain ⟨hc, hd, ho⟩ := (State.quiet_iff s).mp h
  rw [State.settle_of_calm hc, State.drainTest_of_not_due hd, State.deliverAll_of_offered ho]

/-- Report delivery for one host: nothing, or a report exchange on the lowest-lettered IDLE link with its head frame. -/
theorem State.deliver_cases (s : State) (h : HostNo) :
    (s.offersNothing h ∧ s.deliver h = s) ∨
    ∃ x r rest l, s.host h = some x ∧ x.queue = r :: rest ∧ x.reportLink = none ∧ s.idleLink h = some l ∧
      s.deliver h = (s.updHost h (fun x => { x with reportLink := some l })).updLink l
        (LinkPort.openExchange s.stallLimit (.report h) [.report r]) := by
  by_cases H : s.offersNothing h
  · exact .inl ⟨H, State.deliver_of_offersNothing H⟩
  · right
    simp only [State.offersNothing, not_forall, not_or, exists_prop] at H
    obtain ⟨x, hx, hq, hr, hl⟩ := H
    obtain ⟨r, rest, hq⟩ := List.exists_cons_of_ne_nil hq
    obtain ⟨l, hl⟩ := Option.ne_none_iff_exists'.mp hl
    have hr : x.reportLink = none := by simpa using hr
    exact ⟨x, r, rest, l, hx, hq, hr, hl, by simp [State.deliver, hx, hq, hr, hl]⟩

/-- The link a report is delivered on is IDLE. -/
theorem State.idleLink_isIdle {s : State} {h : HostNo} {l : Link} (H : s.idleLink h = some l) :
    (s.link l).isIdle = true := by
  unfold State.idleLink at H
  split at H
  · have := List.find?_some H
    simp only [Bool.and_eq_true] at this
    exact this.2
  · cases H

end Sys2Proof.Machine
end

