-- ==== Sys2Proof/Laws/Orders.lean ====
section
/-! SUPPORT. The course of an ORDER on a free link (R25, R29, R31), and when nothing follows it. -/
namespace Sys2Proof.Machine

theorem State.accepts_iff (s : State) (l : Link) (c : OrderCode) (f : OrderFrame) :
    s.accepts l c f = true ↔ (s.link l).free = true ∧ s.acceptance l c f = none := by
  simp [State.accepts]

/-- An accepted order is carried out in its exchange, and the command settles. -/
theorem State.takeOrder_accepted {s : State} {l : Link} {c : OrderCode} {f : OrderFrame}
    (h : s.accepts l c f = true) (k : State → State) :
    s.takeOrder l c f k = (k (s.openOrder l f.tag (!c.queued))).settle := by
  obtain ⟨hf, ha⟩ := (State.accepts_iff s l c f).mp h
  obtain ⟨hu, hx, -⟩ := (LinkPort.free_iff _).mp hf
  simp [State.takeOrder, hu, hx, ha]

/-- A refused order. -/
theorem State.takeOrder_refused {s : State} {l : Link} {c : OrderCode} {f : OrderFrame} {x : Refused}
    (hf : (s.link l).free = true) (ha : s.acceptance l c f = some x) (k : State → State) :
    s.takeOrder l c f k = (s.refuseOrder l c f x).settle := by
  obtain ⟨hu, hx, -⟩ := (LinkPort.free_iff _).mp hf
  simp [State.takeOrder, hu, hx, ha]

theorem State.updLink_updLink (s : State) (l : Link) (f g : LinkPort → LinkPort) :
    (s.updLink l f).updLink l g = s.updLink l (fun p => g (f p)) := by
  simp [State.updLink]

theorem State.updLink_congr {s : State} {l : Link} {f g : LinkPort → LinkPort} (h : f (s.link l) = g (s.link l)) :
    s.updLink l f = s.updLink l g := by
  simp only [State.link] at h
  simp [State.updLink, h]

/-- An order answered on a free link. -/
theorem State.openOrder_offer {s : State} {l : Link} (hf : (s.link l).free = true) (tag : Byte) (holds : Bool)
    (a : Answer) (rest : List Frame) :
    (s.openOrder l tag holds).offer l (.answer a :: rest) = s.answered l tag (s.owner l) holds a rest := by
  unfold State.openOrder State.offer State.answered
  rw [State.updLink_updLink]
  exact State.updLink_congr (LinkPort.offer_answer hf)

theorem State.openOrder_refuse {s : State} {l : Link} (hf : (s.link l).free = true) (tag tag' : Byte) (holds : Bool)
    (code : RefusalCode) (detail : List Byte) :
    (s.openOrder l tag holds).refuse l tag' code detail =
      s.answered l tag (s.owner l) holds (refusalAnswer tag' code detail) :=
  State.openOrder_offer hf tag holds _ _

theorem State.openOrder_complete {s : State} {l : Link} (hf : (s.link l).free = true) (tag tag' : Byte) (holds : Bool)
    (image : List Byte) :
    (s.openOrder l tag holds).complete l tag' image = s.answered l tag (s.owner l) holds (completeAnswer tag' image) :=
  State.openOrder_offer hf tag holds _ _

/-! ### Reading a state with an exchange opened or answered -/

@[simp] theorem State.openOrder_drive (s : State) (l : Link) (tag : Byte) (b : Bool) (st : OrderStage) (d : DriveNo) :
    (s.openOrder l tag b st).drive d = s.drive d := rfl
@[simp] theorem State.openOrder_host (s : State) (l : Link) (tag : Byte) (b : Bool) (st : OrderStage) (h : HostNo) :
    (s.openOrder l tag b st).host h = s.host h := rfl
@[simp] theorem State.openOrder_owner (s : State) (l : Link) (tag : Byte) (b : Bool) (st : OrderStage) (k : Link) :
    (s.openOrder l tag b st).owner k = s.owner k := rfl
@[simp] theorem State.openOrder_staging (s : State) (l : Link) (tag : Byte) (b : Bool) (st : OrderStage) :
    (s.openOrder l tag b st).staging = s.staging := rfl
@[simp] theorem State.openOrder_mode (s : State) (l : Link) (tag : Byte) (b : Bool) (st : OrderStage) :
    (s.openOrder l tag b st).mode = s.mode := rfl
@[simp] theorem State.openOrder_settings (s : State) (l : Link) (tag : Byte) (b : Bool) (st : OrderStage) :
    (s.openOrder l tag b st).settings = s.settings := rfl
@[simp] theorem State.openOrder_copy (s : State) (l : Link) (tag : Byte) (b : Bool) (st : OrderStage) :
    (s.openOrder l tag b st).copy = s.copy := rfl
@[simp] theorem State.openOrder_fences (s : State) (l : Link) (tag : Byte) (b : Bool) (st : OrderStage) :
    (s.openOrder l tag b st).fences = s.fences := rfl
@[simp] theorem State.openOrder_authorityHost (s : State) (l : Link) (tag : Byte) (b : Bool) (st : OrderStage) :
    (s.openOrder l tag b st).authorityHost = s.authorityHost := rfl

theorem State.openOrder_updDrive (s : State) (l : Link) (tag : Byte) (b : Bool) (st : OrderStage) (d : DriveNo)
    (f : Drive → Drive) : (s.openOrder l tag b st).updDrive d f = (s.updDrive d f).openOrder l tag b st := rfl
theorem State.openOrder_tell (s : State) (l : Link) (tag : Byte) (b : Bool) (st : OrderStage) (h : HostNo) (r : Record) :
    ((s.openOrder l tag b st).tell h r).links = (s.openOrder l tag b st).links := rfl

@[simp] theorem State.answered_link (s : State) (l : Link) (tag : Byte) (h : Option HostNo) (b : Bool) (a : Answer)
    (rest : List Frame) (k : Link) :
    (s.answered l tag h b a rest).link k =
      if k = l then { s.link l with exchange := some (.order ⟨tag, h, b, .answering⟩), offered := some (.frame (.answer a)),
                                    toSend := rest, stall := some ⟨.answer, s.stallLimit⟩ }
      else s.link k := by
  simp [State.answered]
@[simp] theorem State.answered_drive (s : State) (l : Link) (tag : Byte) (h : Option HostNo) (b : Bool) (a : Answer)
    (rest : List Frame) (d : DriveNo) : (s.answered l tag h b a rest).drive d = s.drive d := rfl
@[simp] theorem State.answered_host (s : State) (l : Link) (tag : Byte) (h : Option HostNo) (b : Bool) (a : Answer)
    (rest : List Frame) (k : HostNo) : (s.answered l tag h b a rest).host k = s.host k := rfl
@[simp] theorem State.answered_mode (s : State) (l : Link) (tag : Byte) (h : Option HostNo) (b : Bool) (a : Answer)
    (rest : List Frame) : (s.answered l tag h b a rest).mode = s.mode := rfl
@[simp] theorem State.answered_copy (s : State) (l : Link) (tag : Byte) (h : Option HostNo) (b : Bool) (a : Answer)
    (rest : List Frame) : (s.answered l tag h b a rest).copy = s.copy := rfl
@[simp] theorem State.answered_resetting (s : State) (l : Link) (tag : Byte) (h : Option HostNo) (b : Bool) (a : Answer)
    (rest : List Frame) : (s.answered l tag h b a rest).resetting = s.resetting := rfl

/-! ### When a state stays quiet -/

/-- A change that raises nothing, drains nothing, queues no report and frees no link leaves a quiet state quiet. -/
theorem State.quiet_of {s t : State} (hq : s.quiet = true)
    (hd : ∀ d, (t.drive d).selEvent = (s.drive d).selEvent ∧ (t.drive d).patrolEvent = (s.drive d).patrolEvent)
    (hm : t.drainDue = true → s.drainDue = true)
    (hh : ∀ h y, t.host h = some y → y.queue = [] ∨ y.reportLink.isSome = true ∨
      ∃ x, s.host h = some x ∧ y.queue = x.queue ∧ y.reportLink = x.reportLink ∧ y.entry = x.entry)
    (hl : ∀ l, (t.link l).isIdle = true → (s.link l).isIdle = true) : t.quiet = true := by
  obtain ⟨hc, hdd, ho⟩ := (State.quiet_iff s).mp hq
  refine (State.quiet_iff t).mpr ⟨?_, ?_, ?_⟩
  · rw [State.calm_iff] at hc ⊢
    intro d
    rw [(hd d).1, (hd d).2]
    exact hc d
  · cases h : t.drainDue with
    | false => rfl
    | true => rw [hm h] at hdd; cases hdd
  · rw [State.reportsOffered_iff] at ho ⊢
    intro h y hy
    rcases hh h y hy with h1 | h1 | ⟨x, hx, hxq, hxr, hxe⟩
    · exact .inl h1
    · exact .inr (.inl h1)
    · rcases ho h x hx with h1 | h1 | h1
      · exact .inl (by rw [hxq, h1])
      · exact .inr (.inl (by rw [hxr, h1]))
      · refine .inr (.inr ?_)
        simp only [State.idleLink, hx, hy] at h1 ⊢
        rw [List.find?_eq_none] at h1 ⊢
        intro k hk hcon
        refine h1 k hk ?_
        simp only [Bool.and_eq_true] at hcon ⊢
        exact ⟨by rw [← hxe]; exact hcon.1, hl k hcon.2⟩

/-- An answered order leaves a quiet state quiet, whatever table or register it changed beside. -/
theorem State.quiet_answered {s t : State} {l : Link} {tag : Byte} {o : Option HostNo} {b : Bool} {a : Answer}
    {rest : List Frame} (hq : s.quiet = true)
    (hd : ∀ d, (t.drive d).selEvent = (s.drive d).selEvent ∧ (t.drive d).patrolEvent = (s.drive d).patrolEvent)
    (hm : t.drainDue = true → s.drainDue = true)
    (hh : ∀ h y, t.host h = some y → y.queue = [] ∨ y.reportLink.isSome = true ∨
      ∃ x, s.host h = some x ∧ y.queue = x.queue ∧ y.reportLink = x.reportLink ∧ y.entry = x.entry)
    (hl : ∀ k, k ≠ l → t.link k = s.link k) : (t.answered l tag o b a rest).quiet = true := by
  refine State.quiet_of hq hd hm hh fun k hk => ?_
  by_cases hkl : k = l
  · subst hkl
    simp [LinkPort.isIdle] at hk
  · rw [State.answered_link, if_neg hkl] at hk
    rw [← hl k hkl]
    exact hk

/-- Answering an order with nothing else changed leaves a quiet state quiet. -/
theorem State.quiet_answered_same {s : State} {l : Link} {tag : Byte} {o : Option HostNo} {b : Bool} {a : Answer}
    {rest : List Frame} (hq : s.quiet = true) : (s.answered l tag o b a rest).quiet = true :=
  State.quiet_answered hq (fun _ => ⟨rfl, rfl⟩) id (fun _ y hy => .inr (.inr ⟨y, hy, rfl, rfl, rfl⟩)) (fun _ _ => rfl)

/-! ### One drive changed beside the answer -/

theorem State.updDrive_congr {s : State} {d : DriveNo} {f g : Drive → Drive} (h : f (s.drive d) = g (s.drive d)) :
    s.updDrive d f = s.updDrive d g := by
  simp only [State.drive] at h
  simp [State.updDrive, h]

theorem State.updHost_congr {s : State} {h : HostNo} {f g : HostState → HostState}
    (H : ∀ x, s.host h = some x → f x = g x) : s.updHost h f = s.updHost h g := by
  simp only [State.host] at H
  have : (s.hosts.get h).map f = (s.hosts.get h).map g := by
    cases hx : s.hosts.get h with
    | none => rfl
    | some x => simp [H x hx]
  simp [State.updHost, this]

theorem State.updDrive_owner (s : State) (d : DriveNo) (f : Drive → Drive) (l : Link) :
    (s.updDrive d f).owner l = s.owner l := rfl

/-- The owner of a link depends on the entries of the host table alone. -/
theorem State.owner_congr {s t : State} (h : ∀ k, (t.host k).map (·.entry) = (s.host k).map (·.entry)) (l : Link) :
    t.owner l = s.owner l := by
  unfold State.owner
  congr 1
  funext k
  have := h k
  cases hs : s.host k <;> cases ht : t.host k <;> simp_all

/-- The queues decide whether everything is drained. -/
theorem State.drainDue_of_queues {s t : State} (hm : t.mode = s.mode) (hr : t.resetting = s.resetting)
    (hc : t.copy = s.copy) (hq : ∀ d, (t.drive d).queue = (s.drive d).queue) : t.drainDue = s.drainDue := by
  simp only [State.drainDue, State.drained, hm, hr, hc, hq]

/-- An order that changes one drive, but neither its queue nor its events, leaves a quiet state quiet. -/
theorem State.quiet_answered_updDrive {s : State} {d : DriveNo} {f : Drive → Drive} {l : Link} {tag : Byte}
    {o : Option HostNo} {b : Bool} {a : Answer} {rest : List Frame} (hq : s.quiet = true)
    (hf : (f (s.drive d)).selEvent = (s.drive d).selEvent ∧ (f (s.drive d)).patrolEvent = (s.drive d).patrolEvent ∧
      (f (s.drive d)).queue = (s.drive d).queue) : ((s.updDrive d f).answered l tag o b a rest).quiet = true := by
  have hk : ∀ k, ((s.updDrive d f).drive k).selEvent = (s.drive k).selEvent ∧
      ((s.updDrive d f).drive k).patrolEvent = (s.drive k).patrolEvent ∧
      ((s.updDrive d f).drive k).queue = (s.drive k).queue := fun k => by
    rw [State.updDrive_drive]
    split
    · rename_i h; subst h; exact hf
    · exact ⟨rfl, rfl, rfl⟩
  refine State.quiet_answered hq (fun k => ⟨(hk k).1, (hk k).2.1⟩) ?_ (fun _ y hy => .inr (.inr ⟨y, hy, rfl, rfl, rfl⟩))
    (fun _ _ => rfl)
  rw [State.drainDue_of_queues (t := s.updDrive d f) (s := s) rfl rfl rfl fun k => (hk k).2.2]
  exact id

/-- A command that ends in `t` and settles ends in `t` itself from a quiet state, when `t` is quiet then. -/
theorem exec_settles {i : Instr} {s t : State} (h : exec i s = .next t.settle) (hq : s.quiet = true → t.quiet = true) :
    exec i s = .next t.settle ∧ (s.quiet = true → exec i s = .next t) :=
  ⟨h, fun q => by rw [h, State.settle_of_quiet (hq q)]⟩

end Sys2Proof.Machine
end

