-- ==== Sys2Proof/Laws/PerInstr.lean ====
section
/-! SUPPORT. A statement about every command, one lemma for each: an order's code and frame spell the order itself
(section 11.1). -/
namespace Sys2Proof.Laws.OrderCodes

/-- An order's code, with its frame and the level of the fault line, spells the order. -/
def Statement (i : Instr) : Prop :=
  ∀ l code f, i.wf = true → i.order? = some (l, code, f) → orderOf l i.faultLine code f = i

theorem powerOn (signals : PerLink Bool) (answering : PerDrive Bool) : Statement (.powerOn signals answering) := by
  intro _ _ _ _ ho
  cases ho

theorem linkUp (l : Link) : Statement (.linkUp l) := by
  intro _ _ _ _ ho
  cases ho

theorem linkDown (l : Link) : Statement (.linkDown l) := by
  intro _ _ _ _ ho
  cases ho

theorem reset (l : Link) : Statement (.reset l) := by
  intro _ _ _ _ ho
  cases ho

theorem orderOnBusyLink (l : Link) (tag : Byte) : Statement (.orderOnBusyLink l tag) := by
  intro _ _ _ _ ho
  cases ho

theorem unknownOrder (l : Link) (code : Byte) (f : OrderFrame) : Statement (.unknownOrder l code f) := by
  intro l' code' f' hw ho
  cases ho
  simp only [Instr.wf, Bool.and_eq_true, Bool.or_eq_true, beq_iff_eq, decide_eq_true_eq] at hw
  have h0 : code = 0 → code.toNat = 0 := fun h => by simp [h]
  unfold orderOf
  split <;> first | rfl | (exfalso; rcases hw.1 with h | h; · have := h0 h; omega
                           · omega)

theorem frameDiscarded (l : Link) (bytes : List Byte) : Statement (.frameDiscarded l bytes) := by
  intro _ _ _ _ ho
  cases ho

theorem read (l : Link) (f : OrderFrame) : Statement (.read l f) := by
  intro l' code f' _ ho
  cases ho
  rfl

theorem write (l : Link) (f : OrderFrame) : Statement (.write l f) := by
  intro l' code f' _ ho
  cases ho
  rfl

theorem verify (l : Link) (f : OrderFrame) : Statement (.verify l f) := by
  intro l' code f' _ ho
  cases ho
  rfl

theorem update (l : Link) (f : OrderFrame) : Statement (.update l f) := by
  intro l' code f' _ ho
  cases ho
  rfl

theorem reassignNew (l : Link) (f : OrderFrame) : Statement (.reassignNew l f) := by
  intro l' code f' hw ho
  cases ho
  simp_all [Instr.wf, orderOf]

theorem reassignFill (l : Link) (f : OrderFrame) : Statement (.reassignFill l f) := by
  intro l' code f' hw ho
  cases ho
  simp_all [Instr.wf, orderOf]

theorem claim (l : Link) (f : OrderFrame) : Statement (.claim l f) := by
  intro l' code f' _ ho
  cases ho
  rfl

theorem claimWithNotice (l : Link) (f : OrderFrame) : Statement (.claimWithNotice l f) := by
  intro l' code f' _ ho
  cases ho
  rfl

theorem yield (l : Link) (f : OrderFrame) : Statement (.yield l f) := by
  intro l' code f' _ ho
  cases ho
  rfl

theorem readCheckRecord (l : Link) (f : OrderFrame) : Statement (.readCheckRecord l f) := by
  intro l' code f' _ ho
  cases ho
  rfl

theorem beginLoad (l : Link) (f : OrderFrame) : Statement (.beginLoad l f) := by
  intro l' code f' _ ho
  cases ho
  rfl

theorem loadSegment (l : Link) (f : OrderFrame) : Statement (.loadSegment l f) := by
  intro l' code f' _ ho
  cases ho
  rfl

theorem endLoad (l : Link) (f : OrderFrame) : Statement (.endLoad l f) := by
  intro l' code f' _ ho
  cases ho
  rfl

theorem abandonLoad (l : Link) (f : OrderFrame) : Statement (.abandonLoad l f) := by
  intro l' code f' _ ho
  cases ho
  rfl

theorem readMap (l : Link) (f : OrderFrame) : Statement (.readMap l f) := by
  intro l' code f' _ ho
  cases ho
  rfl

theorem readSnapshot (l : Link) (f : OrderFrame) : Statement (.readSnapshot l f) := by
  intro l' code f' _ ho
  cases ho
  rfl

theorem readHistory (l : Link) (f : OrderFrame) : Statement (.readHistory l f) := by
  intro l' code f' hw ho
  cases ho
  simp_all [Instr.wf, orderOf]

theorem readHistoryClear (l : Link) (f : OrderFrame) : Statement (.readHistoryClear l f) := by
  intro l' code f' hw ho
  cases ho
  simp_all [Instr.wf, orderOf]

theorem readSettings (l : Link) (f : OrderFrame) : Statement (.readSettings l f) := by
  intro l' code f' _ ho
  cases ho
  rfl

theorem editHostSet (l : Link) (f : OrderFrame) : Statement (.editHostSet l f) := by
  intro l' code f' hw ho
  cases ho
  simp_all [Instr.wf, orderOf]

theorem editHostRemove (l : Link) (f : OrderFrame) : Statement (.editHostRemove l f) := by
  intro l' code f' hw ho
  cases ho
  simp_all [Instr.wf, orderOf]

theorem editFence (l : Link) (f : OrderFrame) : Statement (.editFence l f) := by
  intro l' code f' _ ho
  cases ho
  rfl

theorem editProfile (l : Link) (f : OrderFrame) : Statement (.editProfile l f) := by
  intro l' code f' _ ho
  cases ho
  rfl

theorem editSettings (l : Link) (f : OrderFrame) : Statement (.editSettings l f) := by
  intro l' code f' _ ho
  cases ho
  rfl

theorem editMapAdd (l : Link) (f : OrderFrame) : Statement (.editMapAdd l f) := by
  intro l' code f' hw ho
  cases ho
  simp_all [Instr.wf, orderOf]

theorem editMapRemove (l : Link) (f : OrderFrame) : Statement (.editMapRemove l f) := by
  intro l' code f' hw ho
  cases ho
  simp_all [Instr.wf, orderOf]

theorem editMapRetire (l : Link) (f : OrderFrame) : Statement (.editMapRetire l f) := by
  intro l' code f' hw ho
  cases ho
  simp_all [Instr.wf, orderOf]

theorem editMapRebind (l : Link) (f : OrderFrame) : Statement (.editMapRebind l f) := by
  intro l' code f' hw ho
  cases ho
  simp_all [Instr.wf, orderOf]

theorem quiesce (l : Link) (f : OrderFrame) : Statement (.quiesce l f) := by
  intro l' code f' _ ho
  cases ho
  rfl

theorem resume (l : Link) (f : OrderFrame) : Statement (.resume l f) := by
  intro l' code f' _ ho
  cases ho
  rfl

theorem stringReset (l : Link) (f : OrderFrame) : Statement (.stringReset l f) := by
  intro l' code f' _ ho
  cases ho
  rfl

theorem breakClaim (l : Link) (f : OrderFrame) : Statement (.breakClaim l f) := by
  intro l' code f' _ ho
  cases ho
  rfl

theorem driveOffline (l : Link) (f : OrderFrame) : Statement (.driveOffline l f) := by
  intro l' code f' _ ho
  cases ho
  rfl

theorem driveOnline (l : Link) (f : OrderFrame) (faultLine : Bool) : Statement (.driveOnline l f faultLine) := by
  intro l' code f' _ ho
  cases ho
  rfl

theorem imageDataTaken (l : Link) (tag : Byte) (index : BitVec 16) (data : List Byte) :
    Statement (.imageDataTaken l tag index data) := by
  intro _ _ _ _ ho
  cases ho

theorem writeDataTaken (l : Link) (tag : Byte) (index : BitVec 16) (data : List Byte) :
    Statement (.writeDataTaken l tag index data) := by
  intro _ _ _ _ ho
  cases ho

theorem answerAccepted (l : Link) : Statement (.answerAccepted l) := by
  intro _ _ _ _ ho
  cases ho

theorem readoutDataAccepted (l : Link) : Statement (.readoutDataAccepted l) := by
  intro _ _ _ _ ho
  cases ho

theorem transferStartAccepted (l : Link) : Statement (.transferStartAccepted l) := by
  intro _ _ _ _ ho
  cases ho

theorem readDataAccepted (l : Link) : Statement (.readDataAccepted l) := by
  intro _ _ _ _ ho
  cases ho

theorem reportAccepted (l : Link) : Statement (.reportAccepted l) := by
  intro _ _ _ _ ho
  cases ho

theorem linkBusyAccepted (l : Link) : Statement (.linkBusyAccepted l) := by
  intro _ _ _ _ ho
  cases ho

theorem stallTimeout (l : Link) : Statement (.stallTimeout l) := by
  intro _ _ _ _ ho
  cases ho

theorem orphanTimeout (d : DriveNo) : Statement (.orphanTimeout d) := by
  intro _ _ _ _ ho
  cases ho

theorem patrolTimerExpiry (d : DriveNo) : Statement (.patrolTimerExpiry d) := by
  intro _ _ _ _ ho
  cases ho

theorem seekTimeout (d : DriveNo) : Statement (.seekTimeout d) := by
  intro _ _ _ _ ho
  cases ho

theorem orientationTimeout (d : DriveNo) : Statement (.orientationTimeout d) := by
  intro _ _ _ _ ho
  cases ho

theorem driveAnswersPoll (d : DriveNo) : Statement (.driveAnswersPoll d) := by
  intro _ _ _ _ ho
  cases ho

theorem driveLost (d : DriveNo) : Statement (.driveLost d) := by
  intro _ _ _ _ ho
  cases ho

theorem capability (d : DriveNo) (code : TypeCode) (serial : Fin 1000000) :
    Statement (.capability d code serial) := by
  intro _ _ _ _ ho
  cases ho

theorem index (d : DriveNo) : Statement (.index d) := by
  intro _ _ _ _ ho
  cases ho

theorem slotAdvance (d : DriveNo) : Statement (.slotAdvance d) := by
  intro _ _ _ _ ho
  cases ho

theorem seekComplete (d : DriveNo) : Statement (.seekComplete d) := by
  intro _ _ _ _ ho
  cases ho

theorem seekCheck (d : DriveNo) : Statement (.seekCheck d) := by
  intro _ _ _ _ ho
  cases ho

theorem recalComplete (d : DriveNo) : Statement (.recalComplete d) := by
  intro _ _ _ _ ho
  cases ho

theorem recalFailed (d : DriveNo) : Statement (.recalFailed d) := by
  intro _ _ _ _ ho
  cases ho

theorem fault (d : DriveNo) : Statement (.fault d) := by
  intro _ _ _ _ ho
  cases ho

theorem orientationPoint (d : DriveNo) : Statement (.orientationPoint d) := by
  intro _ _ _ _ ho
  cases ho

theorem sectorStart (e : EngineNo) : Statement (.sectorStart e) := by
  intro _ _ _ _ ho
  cases ho

theorem sectorReadEnd (e : EngineNo) (data : List Byte) (check : BitVec 32) (burst : Option Burst) :
    Statement (.sectorReadEnd e data check burst) := by
  intro _ _ _ _ ho
  cases ho

theorem sectorWriteEnd (e : EngineNo) : Statement (.sectorWriteEnd e) := by
  intro _ _ _ _ ho
  cases ho

end Sys2Proof.Laws.OrderCodes
end

