-- ==== Sys2Proof/Laws/Reading.lean ====
section
/-! SUPPORT. What the search for a burst can answer (R90): the table of bursts is complete, and a burst outside a byte
leaves it as it is. -/
namespace Sys2Proof.Machine
open Sys2Proof

/-- The table holds exactly the bursts that are well formed: their first bit in error, and within the sector and its
check field. -/
theorem mem_allBursts (b : Burst) : b ∈ allBursts ↔ b.wf = true := by
  refine ⟨fun h => (List.mem_filter.mp h).2, fun h => List.mem_filter.mpr ⟨?_, h⟩⟩
  have hwf := h
  simp only [Burst.wf, Bool.and_eq_true, List.all_eq_true, List.mem_range, Bool.or_eq_true, decide_eq_true_eq] at hwf
  have h0 := hwf.2 0 (by omega)
  simp only [hwf.1, Bool.not_true, Bool.false_eq_true, false_or, Nat.add_zero] at h0
  refine List.mem_flatten.mpr ⟨_, List.mem_map.mpr ⟨b.start, List.mem_range.mpr h0, rfl⟩,
    List.mem_map.mpr ⟨b.pattern.toNat, List.mem_range.mpr b.pattern.isLt, ?_⟩⟩
  simp

/-- A burst explains a reading: it is well formed, and with its bits restored data bytes and check field agree. -/
theorem explains_iff (data : List Byte) (check : BitVec 32) (b : Burst) :
    explains data check b = true ↔ b.wf = true ∧ Config.checkField (fixData b data) = fixCheck b check := by
  simp [explains]

/-- What the search answers: a burst that explains the reading, the named one when it does; none when no burst does. -/
theorem burstFound_cases (data : List Byte) (check : BitVec 32) (burst : Option Burst) :
    (∃ b, burst = some b ∧ explains data check b = true ∧ burstFound data check burst = some b) ∨
    ((∀ b, burst = some b → explains data check b = false) ∧
      ((∃ b, explains data check b = true ∧ burstFound data check burst = some b) ∨
        ((∀ b, explains data check b = false) ∧ burstFound data check burst = none))) := by
  have search : ∀ found : List Burst, found = allBursts.filter (explains data check) → ∀ n : Nat,
      (∃ b, explains data check b = true ∧ found[n % found.length]? = some b) ∨
        ((∀ b, explains data check b = false) ∧ found[n % found.length]? = none) := by
    intro found hf n
    by_cases h : found = []
    · refine .inr ⟨fun b => ?_, by simp [h]⟩
      by_contra hb
      have hb : explains data check b = true := by simpa using hb
      have : b ∈ found := hf ▸ List.mem_filter.mpr ⟨(mem_allBursts b).mpr ((explains_iff _ _ _).mp hb).1, hb⟩
      simp [h] at this
    · have hlt := Nat.mod_lt n (List.length_pos_iff.mpr h)
      refine .inl ⟨found[n % found.length], ?_, List.getElem?_eq_getElem hlt⟩
      have hall : ∀ b ∈ found, explains data check b = true := fun b hb => (List.mem_filter.mp (hf ▸ hb)).2
      exact hall _ (List.getElem_mem hlt)
  cases burst with
  | none =>
    refine .inr ⟨nofun, ?_⟩
    simpa [burstFound] using search _ rfl (Config.burstChoice data check)
  | some b =>
    by_cases hb : explains data check b = true
    · exact .inl ⟨b, rfl, hb, by simp [burstFound, Option.filter, hb]⟩
    · refine .inr ⟨fun c hc => by cases hc; simpa using hb, ?_⟩
      simpa [burstFound, Option.filter, hb] using search _ rfl (Config.burstChoice data check)

/-- A burst that touches no bit of the byte at a position restores nothing there. -/
theorem burstMask_eq_zero (b : Burst) (i : Nat) (h : ∀ j < 11, (b.start + j) / 8 ≠ i) : burstMask b i = 0 := by
  unfold burstMask
  suffices ∀ (xs : List Nat) (m : Byte), (∀ j ∈ xs, (b.start + j) / 8 ≠ i) →
      xs.foldl (fun m j =>
        if b.pattern.getLsbD j && (b.start + j) / 8 == i then m ^^^ ((0x80#8) >>> ((b.start + j) % 8)) else m) m = m from
    this _ 0 (fun j hj => h j (List.mem_range.mp hj))
  intro xs
  induction xs with
  | nil => intro m _; rfl
  | cons j xs ih =>
    intro m hm
    have hj : ((b.start + j) / 8 == i) = false := by simpa using hm j (by simp)
    simp only [List.foldl_cons, hj, Bool.and_false, Bool.false_eq_true, if_false]
    exact ih m fun k hk => hm k (by simp [hk])

end Sys2Proof.Machine
end

