-- ==== Sys2Proof/Tests/Slice0.lean ====
section
/-! SUPPORT. Tests of one command each on small states, the WellFormed smoke tests, and for every statement with
hypotheses a witness that meets them. Expected values come from the rules named, never from the model. -/
namespace Sys2Proof.Tests
open Sys2Proof Sys2Proof.Machine

/-! ### Small states -/

/-- A seek profile that meets R74 (last distance given). -/
def profile (last : Nat) : Profile := ⟨[(1, 4), (10, 8), (50, 16), (100, 24), (200, 40), (300, 56), (400, 60), (last, 80)], 3⟩
/-- A host entry with its links, every class enabled and every drive watched. -/
def entry (links : BitVec 4) (authority : Bool) : HostEntry := ⟨links, authority, true, true, true, true, false, 255⟩
/-- A READY D80 at cylinder 0 head 0, slot 0, bound to its record. -/
def readyDrive : Drive := { Drive.initial with
  state := .ready, pos := some ⟨0, 0⟩, slot := some 0, orientTimer := some 50, cap := some ⟨.d80, 7⟩
  map := { SpareMap.empty with bound := some (7, .d80) } }
/-- ONLINE: links A to D up; host 1 on A with authority, host 2 on B and C, host 3 on D; every drive READY. -/
def world : State := { State.reset with
  mode := .online, links := PerLink.const (LinkPort.idle true), drives := PerDrive.const readyDrive
  hosts := ⟨some (HostState.fresh (entry 1 true)), some (HostState.fresh (entry 6 false)),
    some (HostState.fresh (entry 8 false)), none⟩
  profile40 := some (profile 500), profile80 := some (profile 700) }
/-- LOADING with every link up. -/
def loading : State := { State.reset with links := PerLink.const (LinkPort.idle true) }
/-- QUIESCED. -/
def quiesced : State := { world with mode := .quiesced }
/-- The state after a command. -/
def after (c : Instr) (s : State) : State := match exec c s with
  | .next t => t
  | .fault f => nomatch f
  | .refused _ => s
/-- An order frame with its image. -/
def order (tag drive : Byte) (form : Byte := 0) (frames : Byte := 0) (image : List Byte := []) : OrderFrame :=
  { tag := tag, drive := drive, form := form, frames := frames, image := (image ++ List.replicate 24 0).take 24 }
/-- A data order's frame. -/
def data (tag drive : Byte) (cylinder : BitVec 16) (head sector count : Byte) (flags : Byte := 0) : OrderFrame :=
  { tag := tag, drive := drive, flags := flags, cylinder := cylinder, head := head, sector := sector, count := count }
/-- The result of the ANSWER offered on a link. -/
def answer (s : State) (l : Link) : Option AnswerResult := match (s.link l).offered with
  | some (.frame (.answer a)) => some a.result
  | _ => none
/-- The claim of drive 1 set. -/
def claimed (holder : Option HostNo) (waiting : List HostNo) (orphan : Option Nat := none) : State :=
  world.updDrive .d1 (fun dr => { dr with claim := ⟨holder, waiting, orphan⟩ })
/-- Drive 1 in a state, with nothing of the turning states. -/
def driveIn (st : DriveState) : State :=
  world.updDrive .d1 (fun dr => { dr with state := st, pos := none, slot := none, orientTimer := none })
/-- Drive 5 with logical track 30/4 on alternate 13 (R112's example: cylinder 641 head 1), in an entry state. -/
def spared (st : EntryState) : State :=
  world.updDrive .d5 (fun dr => { dr with
    map := { dr.map with entries := [⟨⟨30, 4⟩, 13, st, [], .host, 0⟩], pool := dr.map.pool.set 13 .assigned } })
/-- A request for sectors 0 and 1 of track 30/4. -/
def request (kind : ReqKind) (st : ReqState) : Request :=
  { id := 0, issuer := some ⟨9, .h2, .b⟩, kind := kind, start := ⟨30, 4, 0⟩, count := 2, state := st }
/-- Drive 5 MOVING to track 30/4 for a request. -/
def seeking (r : Request) : State :=
  { world.updDrive .d5 (fun dr => { dr with
      state := .moving, queue := [r], armTarget := some ⟨30, 4⟩, seekTarget := some ⟨30, 4⟩, seekTimer := some 120 }) with
    nextRequest := 1 }
/-- Drive 5 ORIENTING for a request on its track, at a slot. -/
def orienting (r : Request) (slot : Nat) : State :=
  { world.updDrive .d5 (fun dr => { dr with
      state := .orienting, queue := [r], armTarget := some ⟨30, 4⟩, pos := some ⟨30, 4⟩, slot := some slot }) with
    nextRequest := 1 }
/-- Engine E0 serving a request on track 30/4 with its transfer on link B. -/
def serving (r : Request) (g : Engine) (slot : Nat) : State :=
  ((orienting r slot).updDrive .d5 (fun dr => { dr with state := .transferring })).updEngine .e0 (fun _ =>
    { g with service := some ⟨r.id, .d5, r.kind, r.issuer, some .b, r.start, ⟨30, 4⟩, ⟨30, 4⟩, some 0, 1, 0⟩ })
/-- The transfer's exchange on link B with a frame offered. -/
def offering (writes : Bool) (frame : Option Offered) (stall : Option StallTimer) (s : State) : State :=
  s.updLink .b (fun p => { p with exchange := some (.transfer .e0 9 writes), offered := frame, stall := stall })
/-- Engine phases of the tests. -/
def phase (p : Phase) (writing : Bool := false) (b1 : Buffer := .empty) (b2 : Buffer := .empty) : Engine :=
  { Engine.idle with phase := p, writing := writing, buf1 := b1, buf2 := b2 }
/-- 512 bytes. -/
def sector (b : Byte) : List Byte := List.replicate 512 b
/-- Link A with an order exchange whose answer is offered. -/
def answering : State := after (.claim .a (order 1 1)) world
/-- Link A with an EDIT PROFILE that awaits its image. -/
def awaiting : State := after (.editProfile .a (order 3 0 2 1)) quiesced
/-- Host 2's report under way on link B. -/
def reporting : State := (world.updHost .h2 (HostState.enqueue ⟨0, .mode .online⟩)).deliverAll
/-- A chain of one member for drive 1, open on link B. -/
def chained : State := after (.answerAccepted .b) (after (.read .b (data 1 1 10 0 0 1 1)) world)
/-- A staging area of link A with a bundle that meets R166. -/
def bundle : Staging := ⟨.a, [⟨.settings, 1, .settings Settings.default⟩, ⟨.host .h1, 2, .host (entry 1 true)⟩,
  ⟨.profile .d40, 3, .profile (profile 500)⟩, ⟨.profile .d80, 4, .profile (profile 700)⟩]⟩

/-- Drive 5 with its copy of 30/4 to alternate 13 under way for host 2's REASSIGN, and what else the law of reports asks. -/
def copying (v : SectorSet) (r : Request) : State :=
  let s := { orienting r 0 with
    copy := some ⟨0, .reassign, r.issuer, .new, .d5, ⟨30, 4⟩, ⟨30, 4⟩, 13, SectorSet.all, 0, 0, .read, []⟩ }
  (s.updDrive .d5 (fun dr => { dr with map := ((spared (.copying v)).drive .d5).map })).updHost .h2 (fun x =>
    { x with reserved := 1 })
/-- The REASSIGN of that copy. -/
def reassigning (st : ReqState) : Request := { request .reassign st with start := ⟨30, 4, 0⟩, count := 32 }
/-- The law of reports, checked. -/
def reportLawHolds (s : State) : Bool :=
  HostNo.all.all (fun h => (s.host h).all (fun x => decide (x.reserved + x.completions ≤ 16 ∧ x.occupied ≤ 24 ∧
    x.lost ≤ 255 ∧ (0 < x.lost → x.occupied = 24) ∧ x.reserved = s.hostRequests h))) &&
  decide (DriveNo.all.map (fun d => (s.drive d).queue.map (·.id))).flatten.Nodup &&
  DriveNo.all.all (fun d => (s.drive d).queue.all (fun r => decide (r.id < s.nextRequest ∧
    (r.issuer = none ↔ r.kind = .patrol ∨ r.kind = .autoReassign)) && r.issuer.all (fun i => (s.host i.host).isSome))) &&
  [EngineNo.e0, .e1].all (fun e => (s.engine e).service.all (fun v => decide (v.request < s.nextRequest) &&
    (s.drive v.drive).queue.all (fun r => decide (r.id = v.request → r.kind = v.kind)))) &&
  s.copy.all (fun c => decide (c.request < s.nextRequest) && DriveNo.all.all (fun d => (s.drive d).queue.all (fun r =>
    decide (r.id = c.request → d = c.drive ∧ r.kind.reassigns = true)))) &&
  decide (s.mode = .loading ∨ s.mode = .quiesced → s.drained = true)
theorem reportLaw_of_holds {s : State} (h : reportLawHolds s = true) : s.ReportLaw := by
  simp only [reportLawHolds, Bool.and_eq_true, List.all_eq_true, decide_eq_true_eq, Option.all_eq_true] at h
  obtain ⟨⟨⟨⟨⟨hh, hn⟩, hd⟩, he⟩, hc⟩, hm⟩ := h
  refine ⟨fun k x hx => ?_, hn, fun d r hr => ?_, fun e v hv => ?_, fun c hx => ?_, hm⟩
  · obtain ⟨h1, h2, h3, h4, h5⟩ := hh k (by cases k <;> decide) x hx
    exact ⟨⟨h1, h2, h3, h4⟩, h5⟩
  · obtain ⟨⟨h1, h2⟩, h3⟩ := hd d (by cases d <;> decide) r hr
    exact ⟨h1, h2, h3⟩
  · exact he e (by cases e <;> decide) v hv
  · exact ⟨(hc c hx).1, fun d r hr => (hc c hx).2 d (by cases d <;> decide) r hr⟩

/-! ### Well-formed commands: an ill-formed one for each check -/

theorem wf_refuses_defined_code_as_unknown : (Instr.unknownOrder .a 28 (order 1 0)).wf = false := by decide
theorem wf_refuses_short_image : (Instr.claim .a { tag := 1, image := [0] }).wf = false := by decide
theorem wf_refuses_order_as_discarded : (Instr.frameDiscarded .a [1, 2]).wf = false := by decide
theorem wf_refuses_reset_as_discarded : (Instr.frameDiscarded .a [6]).wf = false := by decide
theorem wf_refuses_new_with_fill : (Instr.reassignNew .a (order 1 0 2)).wf = false := by decide
theorem wf_refuses_fill_with_new : (Instr.reassignFill .a (order 1 0 1)).wf = false := by decide
theorem wf_refuses_clear_flag : (Instr.readHistory .a { tag := 1, flags := 2 }).wf = false := by decide
theorem wf_refuses_clear_without_flag : (Instr.readHistoryClear .a (order 1 0)).wf = false := by decide
theorem wf_refuses_set_with_remove : (Instr.editHostSet .a (order 1 0 2)).wf = false := by decide
theorem wf_refuses_remove_with_set : (Instr.editHostRemove .a (order 1 0 1)).wf = false := by decide
theorem wf_refuses_add_with_rebind : (Instr.editMapAdd .a (order 1 0 4)).wf = false := by decide
theorem wf_refuses_rebind_with_retire : (Instr.editMapRebind .a (order 1 0 3)).wf = false := by decide
theorem wf_refuses_map_remove_with_add : (Instr.editMapRemove .a (order 1 0 1)).wf = false := by decide
theorem wf_refuses_map_retire_with_add : (Instr.editMapRetire .a (order 1 0 1)).wf = false := by decide
theorem wf_refuses_short_image_data : (Instr.imageDataTaken .a 1 0 [0]).wf = false := by decide
theorem wf_refuses_short_write_data : (Instr.writeDataTaken .a 1 0 [0]).wf = false := by decide
theorem wf_refuses_short_sector : (Instr.sectorReadEnd .e0 [0] 0 none).wf = false := by decide
set_option maxRecDepth 4000 in
theorem wf_refuses_burst_past_check_field : (Instr.sectorReadEnd .e0 (sector 0) 0 (some ⟨4127, 3⟩)).wf = false := by decide
set_option maxRecDepth 4000 in
theorem wf_refuses_burst_without_first_bit : (Instr.sectorReadEnd .e0 (sector 0) 0 (some ⟨0, 2⟩)).wf = false := by decide
theorem wf_accepts_order : (Instr.read .a (data 1 2 100 3 4 5)).wf = true := by decide

/-! ### Frames written out from section 11.1 -/

theorem frame_read_decodes : decodeOrder .a false ([1, 40, 1, 1, 0, 0, 200, 10, 28, 8, 0, 0, 0, 0, 0, 0] ++ List.replicate 24 0) =
    some (.read .a { tag := 40, drive := 1, cylinder := 200, head := 10, sector := 28, count := 8 }) := by decide
theorem frame_update_decodes :
    decodeOrder .c false ([1, 7, 4, 5, 0, 0, 30, 4, 22, 1, 0, 100, 0, 16, 0, 0] ++ List.replicate 24 0) =
    some (.update .c ⟨40, 7, 5, 0, 30, 4, 22, 1, 100, 16, 0, 0, List.replicate 24 0⟩) := by decide
theorem frame_retire_decodes :
    decodeOrder .b true ([1, 9, 22, 2, 0, 0, 0, 0, 0, 0, 0, 0, 0, 0, 3, 0] ++ [0, 0, 0, 4] ++ List.replicate 20 0) =
    some (.editMapRetire .b { tag := 9, drive := 2, form := 3, image := [0, 0, 0, 4] ++ List.replicate 20 0 }) := by decide
theorem table_word_decodes_to_none : decodeTableWord 8 1 = none := rfl

/-! ### One command each -/

/-- R173, R5. -/
theorem test_power_on :
    let t := after (.powerOn ⟨true, false, false, false⟩ ⟨false, false, false, true, false, false, false, false⟩) world
    (t.link .a).up = true ∧ (t.link .b).up = false ∧ (t.drive .d3).state = .starting ∧ (t.drive .d0).state = .absent ∧
      t.mode = .loading := by decide
/-- R40, R45: host 3 is reachable again and its orphan timer stops. -/
theorem test_link_up :
    let s := (claimed (some .h3) [] (some 5)).updLink .d (fun _ => LinkPort.idle false)
    let t := after (.linkUp .d) s
    (t.link .d).up = true ∧ (t.drive .d1).claim.orphan = none := by decide
/-- R39, R45, R56: host 3 is cut off; the limit is 30 s. -/
theorem test_link_down :
    let t := after (.linkDown .d) (claimed (some .h3) [])
    (t.link .d).up = false ∧ (t.drive .d1).claim.orphan = some 30000 := by decide
/-- R41: the chain's member leaves without a completion and its reservation is freed. -/
theorem test_reset :
    let t := after (.reset .b) chained
    (t.drive .d1).queue = [] ∧ (t.link .b).chain = none ∧ (t.host .h2).map (·.reserved) = some 0 := by decide
/-- R24. -/
theorem test_order_on_busy_link : ((after (.orderOnBusyLink .a 8) answering).link .a).busyTags = [8] := by decide
/-- R29 check 1. -/
theorem test_unknown_order : answer (after (.unknownOrder .a 29 (order 1 0)) world) .a = some (.refused .unknownOrder) := by
  decide
/-- R22, R175. -/
theorem test_frame_discarded : after (.frameDiscarded .a [9, 9]) world = world := by decide
/-- R10, R77: the arm moves to the track. -/
theorem test_read :
    let t := after (.read .b (data 1 2 100 3 4 5)) world
    (t.drive .d2).state = .moving ∧ (t.drive .d2).seekTarget = some ⟨100, 3⟩ ∧ answer t .b = some .accepted := by decide
/-- R2, R28: cylinder 640 of a D80 is no data cylinder. -/
theorem test_read_past_data_area : answer (after (.read .b (data 1 2 640 0 0 1)) world) .b = some (.refused .address) := by
  decide
/-- R153: one slot of the host's report queue is reserved. -/
theorem test_write : ((after (.write .b (data 1 2 100 3 4 5)) world).host .h2).map (·.reserved) = some 1 := by decide
/-- R77: the arm stands on the track. -/
theorem test_verify : ((after (.verify .b (data 1 2 0 0 4 5)) world).drive .d2).state = .orienting := by decide
/-- R28 b, R176: an UPDATE of no bytes is refused FORMAT. -/
theorem test_update : answer (after (.update .b (data 1 2 0 0 4 1)) world) .b = some (.refused .format) ∧
    answer (after (.update .b { data 1 2 0 0 4 1 with offset := 511, length := 1 }) world) .b = some .accepted := by decide
/-- R124 b: the lowest FREE alternate. -/
theorem test_reassign_new :
    let t := after (.reassignNew .b { order 1 2 1 with cylinder := 30, head := 4 }) world
    (t.drive .d2).map.altState 0 = .assigned ∧ (t.copy.map (·.dest)) = some 0 := by decide
/-- R125 a: no VOID entry. -/
theorem test_reassign_fill :
    let t := after (.reassignFill .b { order 1 2 2 with cylinder := 30, head := 4 }) world
    (t.host .h2).bind (fun x => x.check.code) = some (.completion .state none) := by decide
/-- R51 a. -/
theorem test_claim : ((after (.claim .a (order 1 1)) world).drive .d1).claim.holder = some .h1 := by decide
/-- R51 c. -/
theorem test_claim_held : answer (after (.claim .a (order 1 1)) (claimed (some .h2) [])) .a = some (.refused .claimed) := by
  decide
/-- R52. -/
theorem test_claim_with_notice :
    let t := after (.claimWithNotice .a (order 1 1)) (claimed (some .h2) [.h3])
    answer t .a = some .claimedWaiting ∧ (t.drive .d1).claim.waiting = [.h3, .h1] := by decide
/-- R53, R54. -/
theorem test_yield : ((after (.yield .b (order 1 1)) (claimed (some .h2) [.h3, .h1])).drive .d1).claim =
    ⟨some .h3, [.h1], none⟩ := by decide
/-- R150. -/
theorem test_read_check_record :
    let s := world.updHost .h2 (fun x => { x with check := { x.check with pending := true, overwrites := 4 } })
    ((after (.readCheckRecord .b (order 1 0)) s).host .h2).map (fun x => (x.check.pending, x.check.overwrites)) =
      some (false, 0) := by decide
/-- R164. -/
theorem test_begin_load : (after (.beginLoad .a (order 1 0)) loading).staging = some ⟨.a, []⟩ := by decide
/-- R25 d, R36 d: wait d) runs. -/
theorem test_load_segment :
    ((after (.loadSegment .a (order 1 0 1 1)) { loading with staging := some ⟨.a, []⟩ }).link .a).stall =
      some ⟨.image, 40⟩ := by decide
/-- R167. -/
theorem test_end_load :
    let t := after (.endLoad .a (order 1 0)) { loading with staging := some bundle }
    t.mode = .online ∧ t.staging = none ∧ answer t .a = some .complete := by decide
/-- R166: an empty bundle has no host. -/
theorem test_end_load_empty :
    let t := after (.endLoad .a (order 1 0)) { loading with staging := some ⟨.a, []⟩ }
    answer t .a = some (.refused .loadInvalid) ∧ t.mode = .loading ∧ t.staging = none := by decide
/-- R168. -/
theorem test_abandon_load : answer (after (.abandonLoad .a (order 1 0)) loading) .a = some (.refused .noLoad) := by decide
/-- R171, R177: a map takes three DATA frames. -/
theorem test_read_map : ((after (.readMap .a (order 1 5)) world).link .a).toSend.length = 3 := by decide
/-- R171, R177: a snapshot takes seven. -/
theorem test_read_snapshot : ((after (.readSnapshot .a (order 1 0)) world).link .a).toSend.length = 7 := by decide
/-- R151, R177: a history takes four. -/
theorem test_read_history : ((after (.readHistory .a (order 1 0)) world).link .a).toSend.length = 4 := by decide
/-- R151: the clear option clears the overflow count. -/
theorem test_read_history_clear :
    (after (.readHistoryClear .a { order 1 0 with flags := 2 }) { world with overflow := 5 }).overflow = 0 := by decide
/-- R171, R177: settings take one. -/
theorem test_read_settings : ((after (.readSettings .a (order 1 0)) world).link .a).toSend.length = 1 := by decide
/-- R49: host 4 enters the table, empty. -/
theorem test_edit_host_set :
    let s := quiesced.updHost .h2 (fun x => { x with entry := entry 2 false })
    ((after (.editHostSet .a (order 1 0 1 0 [4, 4, 0, 15, 0, 255])) s).host .h4).map (·.entry) = some (entry 4 false) := by
  decide
/-- R48 b. -/
theorem test_edit_host_remove : (after (.editHostRemove .a (order 1 0 2 0 [3])) quiesced).host .h3 = none := by decide
/-- R63. -/
theorem test_edit_fence :
    ((after (.editFence .a (order 1 2 0 0 [2, 2, 1, 0, 10, 0, 20, 1])) world).fences.get .h2).get .d2 =
      [⟨10, 20, .read⟩] := by decide
/-- R169: the image is awaited. -/
theorem test_edit_profile : (awaiting.link .a).exchange.isSome = true ∧ (awaiting.link .a).offered = none := by decide
/-- R30: refused outside QUIESCED. -/
theorem test_edit_settings : answer (after (.editSettings .a (order 1 0 0 1)) world) .a = some (.refused .notQuiesced) := by
  decide
/-- R118. -/
theorem test_edit_map_add :
    ((after (.editMapAdd .a (order 1 5 1 0 [0, 30, 4, 13])) world).drive .d5).map = ((spared .active).drive .d5).map := by
  decide
/-- R119. -/
theorem test_edit_map_remove :
    ((after (.editMapRemove .a (order 1 5 2 0 [0, 30, 4])) (spared .active)).drive .d5).map = (world.drive .d5).map := by decide
/-- R120. -/
theorem test_edit_map_retire :
    ((after (.editMapRetire .a (order 1 5 3 0 [0, 0, 0, 13])) world).drive .d5).map.altState 13 = .retired := by decide
/-- R121: the map is empty again. -/
theorem test_edit_map_rebind :
    ((after (.editMapRebind .a (order 1 5 4)) (spared .active)).drive .d5).map = (world.drive .d5).map := by decide
/-- R121, R130 d: a copy holds the track buffer after STRING RESET has emptied the queue; BUSY-TRACK, track 30/4. -/
theorem test_edit_map_rebind_copy :
    let s := (copying 0 (reassigning .transferring)).updDrive .d5 (fun dr => { dr with queue := [] })
    answer (after (.editMapRebind .a (order 1 5 4)) s) .a = some (.refused .busyTrack) := by decide
/-- R161, R162: with nothing queued the mode is QUIESCED at once. -/
theorem test_quiesce : (after (.quiesce .a (order 1 0)) world).mode = .quiesced := by decide
/-- R163. -/
theorem test_resume : (after (.resume .a (order 1 0)) quiesced).mode = .online := by decide
/-- R172. -/
theorem test_string_reset :
    let t := after (.stringReset .a (order 1 0)) (claimed (some .h2) [.h3])
    (t.drive .d1).claim = ⟨none, [], none⟩ ∧ (t.host .h3).map (fun x => x.queue.length) = some 1 := by decide
/-- R58. -/
theorem test_break_claim : ((after (.breakClaim .a (order 1 1)) (claimed (some .h2) [.h3])).drive .d1).claim.holder =
    some .h3 := by decide
/-- R18: STOP is sent to a moving drive. -/
theorem test_drive_offline :
    let t := after (.driveOffline .a (order 1 5)) (seeking (request .read .positioning))
    (t.drive .d5).state = .offline ∧ (t.drive .d5).sent = [.stop] ∧ (t.drive .d5).queue = [] := by decide
/-- R19. -/
theorem test_drive_online :
    ((after (.driveOnline .a (order 1 1) false) (driveIn .offline)).drive .d1).state = .recalibrating ∧
      ((after (.driveOnline .a (order 1 1) true) (driveIn .offline)).drive .d1).cause = some .faultLine := by decide
set_option maxRecDepth 4000 in
/-- R169, R176: an image that names another type is refused FORMAT. -/
theorem test_image_data_taken : answer (after (.imageDataTaken .a 3 0 (sector 0)) awaiting) .a = some (.refused .format) := by
  decide
/-- R88: the frame fills buffer 1. -/
theorem test_write_data_taken :
    let s := offering true none none (serving (request .write .transferring) (phase .awaiting) 0)
    ((after (.writeDataTaken .b 9 0 [7]) s).engine .e0).buf1 = .full 0 [7] := by decide
/-- R25: the exchange is over. -/
theorem test_answer_accepted : (after (.answerAccepted .a) answering).link .a = LinkPort.idle true := by decide
/-- R25 e: the next frame follows. -/
theorem test_readout_data_accepted :
    let s := after (.answerAccepted .a) (after (.readMap .a (order 1 5)) world)
    ((after (.readoutDataAccepted .a) s).link .a).toSend.length = 1 := by decide
/-- R36 b: wait b) ends. -/
theorem test_transfer_start_accepted :
    let s := offering false (some (.frame (.transferStart 9 ⟨30, 4, 0⟩ 0))) (some ⟨.readFrame, 40⟩)
      (serving (request .read .transferring) (phase .awaiting) 0)
    ((after (.transferStartAccepted .b) s).link .b).stall = none := by decide
/-- R87, R89. -/
theorem test_read_data_accepted :
    let s := offering false (some (.frame (.data 9 0 [1]))) (some ⟨.readFrame, 40⟩)
      (serving (request .read .transferring) (phase .awaiting false (.full 0 [1])) 0)
    let t := after (.readDataAccepted .b) s
    (t.engine .e0).buf1 = .empty ∧ (t.drive .d5).queue.map (·.done) = [1] := by decide
/-- R158, R156: with 3 notices lost a GAP takes the freed slot. -/
theorem test_report_accepted :
    let s := reporting.updHost .h2 (fun x => { x with lost := 3 })
    ((after (.reportAccepted .b) s).host .h2).map (fun x => (x.queue, x.lost)) = some ([⟨0, .gap 3⟩], 0) := by decide
/-- R24: the link is IDLE again. -/
theorem test_link_busy_accepted :
    let s := world.updLink .a (fun p => { p with offered := some (.linkBusy 8), stall := some ⟨.linkBusy, 40⟩ })
    (after (.linkBusyAccepted .a) s).link .a = LinkPort.idle true := by decide
/-- R37 a: the chain is discarded. -/
theorem test_stall_timeout :
    let t := after (.stallTimeout .b) chained
    (t.link .b).chain = none ∧ (t.drive .d1).queue = [] := by decide
/-- R57. -/
theorem test_orphan_timeout :
    let t := after (.orphanTimeout .d1) (claimed (some .h2) [.h3] (some 0))
    (t.drive .d1).claim = ⟨some .h3, [], none⟩ ∧
      (t.host .h2).map (·.queue) = some [⟨0, .claimDropped .d1 (some .h3) .orphan⟩] := by decide
/-- R144: patrol is off, the drive is due. -/
theorem test_patrol_timer_expiry :
    let s := world.updDrive .d1 (fun dr => { dr with patrolTimer := .running 0 })
    ((after (.patrolTimerExpiry .d1) s).drive .d1).patrolDue = true := by decide
/-- R12. -/
theorem test_seek_timeout :
    let t := after (.seekTimeout .d5) (seeking (request .read .positioning))
    (t.drive .d5).sent = [.stop, .recalibrate] ∧ (t.drive .d5).queue.map (·.state) = [.queued] := by decide
/-- R14. -/
theorem test_orientation_timeout :
    let t := after (.orientationTimeout .d1) world
    (t.drive .d1).cause = some .orientTimeout ∧ (t.drive .d1).sent = [.stop] := by decide
/-- R5. -/
theorem test_drive_answers_poll : ((after (.driveAnswersPoll .d1) (driveIn .absent)).drive .d1).sent = [.spinUp] := by decide
/-- R17. -/
theorem test_drive_lost :
    let t := after (.driveLost .d1) (claimed (some .h2) [])
    (t.drive .d1).state = .absent ∧ (t.drive .d1).cap = none ∧ (t.drive .d1).claim.holder = some .h2 := by decide
/-- R7: the map is bound to serial 7. -/
theorem test_capability :
    ((after (.capability .d1 .d80 8) (driveIn .starting)).drive .d1).reason = some .serial ∧
      ((after (.capability .d1 .d80 7) (driveIn .starting)).drive .d1).state = .recalibrating := by decide
/-- R3. -/
theorem test_index : ((after (.index .d1) (orienting (request .read .orienting) 127)).drive .d1).slot = some 0 := by decide
/-- R3. -/
theorem test_slot_advance : ((after (.slotAdvance .d5) (orienting (request .read .orienting) 127)).drive .d5).slot =
    some 0 := by decide
/-- R11. -/
theorem test_seek_complete :
    let t := after (.seekComplete .d5) (seeking (request .read .positioning))
    (t.drive .d5).state = .orienting ∧ (t.drive .d5).pos = some ⟨30, 4⟩ ∧ (t.drive .d5).seekTimer = none := by decide
/-- R12 c: the third seek check ends the request. -/
theorem test_seek_check :
    let t := after (.seekCheck .d5) (seeking { request .read .positioning with seekChecks := 2 })
    (t.drive .d5).queue = [] ∧ (t.host .h2).bind (fun x => x.check.code) = some (.completion .seekCheck none) := by decide
/-- R13 a. -/
theorem test_recal_complete :
    let t := after (.recalComplete .d1) (driveIn .recalibrating)
    (t.drive .d1).state = .ready ∧ (t.drive .d1).pos = some ⟨0, 0⟩ ∧ (t.drive .d1).slot = none := by decide
/-- R13 b. -/
theorem test_recal_failed : ((after (.recalFailed .d1) (driveIn .recalibrating)).drive .d1).cause = some .recalFailed := by
  decide
/-- R15. -/
theorem test_fault :
    let t := after (.fault .d5) (seeking (request .read .positioning))
    (t.drive .d5).state = .faulted ∧ (t.host .h2).map (fun x => x.queue.length) = some 2 := by decide
/-- R78, R79: sector 0 under head 4 starts at slot 16; two slots of lead before it. -/
theorem test_orientation_point :
    let t := after (.orientationPoint .d5) (orienting (request .read .orienting) 14)
    (t.drive .d5).state = .transferring ∧ (t.link .b).offered = some (.frame (.transferStart 9 ⟨30, 4, 0⟩ 0)) := by decide
/-- R80: both engines in use. -/
theorem test_orientation_miss :
    let busy := fun g : Engine => { g with service := some ⟨7, .d0, .patrol, none, none, ⟨0, 0, 0⟩, ⟨0, 0⟩, ⟨0, 0⟩, none, 31, 0⟩ }
    let s := ((orienting (request .read .orienting) 14).updEngine .e0 busy).updEngine .e1 busy
    ((after (.orientationPoint .d5) s).drive .d5).queue.map (·.misses) = [1] := by decide
/-- R87. -/
theorem test_sector_start :
    ((after (.sectorStart .e0) (serving (request .read .transferring) (phase .awaiting) 16)).engine .e0).buf1 = .filling 0 := by
  decide
/-- R91 a: with ECC OFF the sector is delivered as read. -/
theorem test_sector_read_end :
    let s := serving (request .verify .transferring) (phase .streaming false (.filling 0)) 20
    let off := { s with settings := { s.settings with perDrive := PerDrive.const ⟨.off, 7, false, false⟩ } }
    ((after (.sectorReadEnd .e0 [] 0 none) off).drive .d5).queue.map (·.done) = [1] := by decide
/-- R85, R86 e, R97: an UPDATE's sector is the current one while it waits for its merge, and keeps its failed reads. A READ
that drains has none. -/
theorem test_sector_read_end_keeps_its_retries :
    let g := { phase .streaming false (.filling 0) with retry := 2 }
    let t := ((serving (request .update .transferring) g 20).readEnds .e0
      ⟨0, .d5, .update, some ⟨9, .h2, .b⟩, some .b, ⟨30, 4, 0⟩, ⟨30, 4⟩, ⟨30, 4⟩, some 0, 1, 0⟩ 0 [] .clean)
    let u := (serving (request .read .transferring) { g with buf2 := .full 1 [] } 20).readEnds .e0
      ⟨0, .d5, .read, some ⟨9, .h2, .b⟩, some .b, ⟨30, 4, 0⟩, ⟨30, 4⟩, ⟨30, 4⟩, some 0, 0, 0⟩ 0 [] .clean
    ((t.engine .e0).phase, (t.engine .e0).retry, (t.engine .e0).service.map (·.current)) =
      (.mergeRevolution, 2, some (some 0)) ∧
    ((u.engine .e0).phase, (u.engine .e0).retry, (u.engine .e0).service.map (·.current)) =
      (.flushing, 0, some none) := by decide
/-- R92: an uncorrectable sector is retried. -/
theorem test_sector_read_retried :
    let s := serving (request .verify .transferring) (phase .streaming false (.filling 0)) 20
    ((s.sectorReadEndWith .e0 [] .uncorrectable).engine .e0).retry = 1 := by decide
/-- R88, R89. -/
theorem test_sector_write_end :
    let t := after (.sectorWriteEnd .e0) (serving (request .write .transferring) (phase .streaming true (.full 0 [1])) 20)
    (t.engine .e0).buf1 = .empty ∧ (t.drive .d5).queue.map (·.done) = [1] := by decide
/-- R112's examples on a D80 and a D40. -/
theorem test_alternates : altTrack .d80 0 = ⟨640, 0⟩ ∧ altTrack .d80 13 = ⟨641, 1⟩ ∧ altTrack .d80 95 = ⟨647, 11⟩ ∧
    altTrack .d40 13 = ⟨321, 1⟩ := by decide

/-! ### Witnesses: states and operands that meet the hypotheses of each statement -/

theorem witness_StepRunsTheFrontCommand : ({ world with pending := [.index .d0] } : State).pending = [.index .d0] := by decide
theorem witness_StepRunsTheFrontCommand_idle : world.pending = [] := by decide
/-- Three hosts wait behind the fourth, the limit of R50, and the holder yields. -/
theorem witness_ClaimLawIsKept :
    let s := { claimed (some .h2) [.h1, .h3, .h4] with pending := [.yield .b (order 1 1)] }
    s.ClaimLaw ∧ step s = .next (after (.yield .b (order 1 1)) { s with pending := [] }) := by
  refine ⟨fun d => ?_, rfl⟩
  cases d <;> exact ⟨by decide, by decide, by decide, by decide⟩
theorem witness_AlternateLawIsKept :
    let s := { spared .active with pending := [.editMapRemove .a (order 1 5 2 0 [0, 30, 4])] }
    s.AlternateLaw ∧ step s = .next (after (.editMapRemove .a (order 1 5 2 0 [0, 30, 4])) { s with pending := [] }) := by
  refine ⟨fun d => ?_, rfl⟩
  cases d <;> exact ⟨by decide, by decide, by decide⟩
/-- A map with an entry on a drive and one staged, and EDIT MAP ADD of an earlier track. -/
theorem witness_AlternateLawIsKept_order :
    let m := ((spared .active).drive .d5).map
    let add := Instr.editMapAdd .a (order 1 5 1 0 [0, 10, 4, 20])
    let s := { spared .active with staging := some ⟨.a, [⟨.map .d5, 1, .map m⟩]⟩, pending := [add] }
    s.MapOrderLaw ∧ step s = .next (after add { s with pending := [] }) := by
  refine ⟨⟨fun d => by cases d <;> (unfold SpareMap.Sorted; decide), fun g hg x hx m hm => ?_⟩, rfl⟩
  cases hg
  cases List.mem_singleton.mp hx
  cases hm
  unfold SpareMap.Sorted
  decide
theorem witness_DriveLawIsKept :
    let s := { orienting (request .read .orienting) 127 with pending := [.slotAdvance .d5] }
    s.DriveLaw ∧ step s = .next (after (.slotAdvance .d5) { s with pending := [] }) := by
  refine ⟨fun d => ?_, rfl⟩
  cases d <;> refine ⟨fun n hn => ?_, by decide, by decide, by decide, by decide⟩ <;>
    · first
      | (have := Option.some.inj (hn : some 0 = some n); omega)
      | (have := Option.some.inj (hn : some 127 = some n); omega)
/-- Sixteen requests, the limit of R64. -/
def fullQueue : State := world.updDrive .d1 (fun dr => { dr with queue := List.replicate 16 (request .read .queued) })
theorem witness_QueueAndHistoryLimitsAreKept_queue :
    let s := { fullQueue with pending := [.read .b (data 1 1 10 0 0 1)] }
    s.QueueLaw ∧ step s = .next (after (.read .b (data 1 1 10 0 0 1)) { s with pending := [] }) := by
  refine ⟨fun d => ?_, rfl⟩
  cases d <;> decide
theorem witness_QueueAndHistoryLimitsAreKept_history :
    let s := { world with
      history := (List.range 64).map (fun n => HistEntry.fresh .d0 ⟨n, 0⟩ 0), pending := [.readHistory .a (order 1 0)] }
    s.HistoryLaw ∧ step s = .next (after (.readHistory .a (order 1 0)) { s with pending := [] }) :=
  ⟨⟨by decide, by decide⟩, rfl⟩
/-- An entry with one sector missing, and a READ of its track. -/
theorem witness_AlternateLawIsKept_entries :
    let s := { spared (.void 0xFFFFFFFE) with pending := [.read .b (data 1 5 30 4 0 1)] }
    s.EntryLaw ∧ step s = .next (after (.read .b (data 1 5 30 4 0 1)) { s with pending := [] }) := by
  refine ⟨fun d e he _ => ?_, rfl⟩
  cases d <;> first
    | exact absurd he List.not_mem_nil
    | (cases List.mem_singleton.mp he; decide)
/-- A copy under way on drive 5, whose drive faults. -/
theorem witness_AlternateLawIsKept_copy :
    let s := { copying 5 (reassigning .orienting) with pending := [.fault .d5] }
    s.ReportLaw ∧ s.CopyLaw ∧ s.AlternateLaw ∧ step s = .next (after (.fault .d5) { s with pending := [] }) ∧
    (s.drive .d5).map.entries.map (·.state) = [.copying 5] := by
  refine ⟨reportLaw_of_holds (by decide), ⟨fun d e he => ?_, fun c hc => ?_⟩, fun d => ?_, rfl, by decide⟩
  · cases d <;> first
      | exact absurd he List.not_mem_nil
      | (cases List.mem_singleton.mp he; exact ⟨fun _ => ⟨_, rfl, rfl, rfl⟩, fun _ => ⟨5, rfl⟩⟩)
  · cases hc; exact ⟨_, List.mem_singleton.mpr rfl, rfl⟩
  · cases d <;> exact ⟨by decide, by decide, by decide⟩
/-- An engine at work on drive 5, and an open chain on link B whose link is reset. -/
theorem witness_QueueAndHistoryLimitsAreKept_arms :
    let s := { (serving (request .read .transferring) (phase .awaiting) 16).updHost .h2 (fun x => { x with reserved := 1 }) with
      pending := [.sectorStart .e0] }
    s.ReportLaw ∧ s.ArmLaw ∧ s.ChainLaw ∧ step s = .next (after (.sectorStart .e0) { s with pending := [] }) := by
  refine ⟨reportLaw_of_holds (by decide), ⟨fun d => ?_, fun d hd => ?_, fun e v hv d r hr _ => ?_, fun d r hr _ => ?_,
    fun e k v w hv hw _ => ?_⟩, ⟨fun d => ?_, fun d r hr x hx => ?_, fun l c hc => ?_⟩, rfl⟩
  · cases d <;> decide
  · cases d <;> exact absurd hd (by decide)
  · cases e with
    | e0 => cases hv; cases d <;> first
      | exact absurd hr List.not_mem_nil
      | (cases List.mem_singleton.mp hr; exact ⟨rfl, rfl, by decide⟩)
    | e1 => exact nomatch hv
  · cases d <;> first
      | exact absurd hr List.not_mem_nil
      | (cases List.mem_singleton.mp hr; exact ⟨.e0, _, rfl, rfl⟩)
  · cases e <;> cases k <;> first | rfl | (cases hw; done) | cases hv
  · cases d <;> decide
  · cases d <;> first
      | exact absurd hr List.not_mem_nil
      | (cases List.mem_singleton.mp hr; cases hx)
  · cases l <;> cases hc
/-- The member of an open chain waits, and its link is reset. -/
theorem witness_QueueAndHistoryLimitsAreKept_chain :
    let s := { chained with pending := [.reset .b] }
    s.ReportLaw ∧ s.ArmLaw ∧ s.ChainLaw ∧ (s.link .b).chain = some ⟨0, .d1, 1⟩ ∧
    step s = .next (after (.reset .b) { s with pending := [] }) := by
  refine ⟨reportLaw_of_holds (by decide), ⟨fun d => ?_, fun d hd => ?_, fun e v hv => ?_, fun d r hr h => ?_,
    fun e k v w hv => ?_⟩, ⟨fun d => ?_, fun d r hr x hx => ?_, fun l c hc => ?_⟩, rfl, rfl⟩
  · cases d <;> decide
  · cases d <;> exact absurd hd (by decide)
  · cases e <;> exact nomatch hv
  · cases d <;> first
      | exact absurd hr List.not_mem_nil
      | (cases List.mem_singleton.mp hr; cases h)
  · cases e <;> exact nomatch hv
  · cases d <;> decide
  · cases d <;> first
      | exact absurd hr List.not_mem_nil
      | (cases List.mem_singleton.mp hr; cases hx; decide)
  · cases l <;> first
      | (cases hc; done)
      | (cases hc; refine ⟨by decide, by decide, fun d r hr x hx _ => ?_, fun k y hy _ => ?_⟩
         · cases d <;> first
             | exact absurd hr List.not_mem_nil
             | (cases List.mem_singleton.mp hr; cases hx; decide)
         · cases k <;> first | rfl | exact nomatch hy)
theorem witness_DownLinkLawIsKept :
    let s := { (offering false none none (serving (request .read .transferring) (phase .awaiting) 16)).updLink .d
      (fun _ => LinkPort.idle false) with pending := [.linkDown .b] }
    s.DownLinkLaw ∧ (s.link .d).up = false ∧ step s = .next (after (.linkDown .b) { s with pending := [] }) := by
  refine ⟨⟨fun l => ?_, fun l hl => ?_, fun l hl => ?_, fun e v l hv hl => ?_⟩, rfl, rfl⟩
  · cases l <;> decide
  · cases l <;> exact absurd hl (by decide)
  · cases l <;> exact absurd hl (by rintro (⟨_, h⟩ | h) <;> exact nomatch h)
  · cases e with
    | e0 => cases hv; cases hl; exact ⟨_, _, rfl⟩
    | e1 => exact nomatch hv
/-- A member of an open chain waits, and its link is reset. -/
theorem witness_ReportLawIsKept :
    let s := { chained with pending := [.reset .b] }
    s.ReportLaw ∧ 0 < s.hostRequests .h2 ∧ step s = .next (after (.reset .b) { s with pending := [] }) :=
  ⟨reportLaw_of_holds (by decide), by decide, rfl⟩
theorem witness_OrderFramesDecodeAsEncoded :
    let i := Instr.driveOnline .d (order 255 7) true
    i.wf = true ∧ i.order? = some (.d, 28, order 255 7) ∧ (order 255 7).size = 40 := by decide
/-- Settings in range, a profile, a fence of four extents to the end of the drive, and a map with an entry at its limits. -/
theorem witness_OrderFramesDecodeAsEncoded_images :
    let xs := List.replicate 4 (⟨0, 65535, .readWrite⟩ : Extent)
    let m : SpareMap := { SpareMap.empty with
      bound := some (999999, .d80)
      entries := [⟨⟨30, 4⟩, 13, .active, [], .host, 0⟩, ⟨⟨647, 11⟩, 95, .void 5, [0, 95], .auto, 15⟩] }
    State.reset.settings.InRange ∧ (profile 639).points.length = 8 ∧ (profile 639).headSwitch ≤ 15 ∧
    (∀ q ∈ (profile 639).points, q.1 < 65536 ∧ q.2 < 65536) ∧ xs.length ≤ 4 ∧
    (∀ x ∈ xs, x.low < 65536 ∧ x.high < 65536) ∧ ({ tag := 0, image := fenceBytes .h4 .d7 xs } : OrderFrame).image =
      fenceBytes .h4 .d7 xs ++ [] ∧
    m.entries.length ≤ 96 ∧ m.pool.length = 96 ∧ (m.entries.map (·.retained)).flatten.length ≤ 96 ∧
    (∀ e ∈ m.entries, e.primary.cyl ≤ 647 ∧ e.primary.head ≤ 11 ∧ e.alt ≤ 95 ∧ e.generation ≤ 15 ∧
      ∀ a ∈ e.retained, a ≤ 95) ∧ m.Sorted := by
  refine ⟨⟨by decide, by decide, by decide, by decide, by decide, by decide, by decide, by decide, by decide,
    fun d => by cases d <;> decide⟩, by decide, by decide, by decide, by decide, by decide, by simp, by decide, by decide,
    by decide, by decide, ?_⟩
  unfold SpareMap.Sorted
  decide
theorem witness_SettlingOffersReportsAndDrains : world.quiet = true ∧ (answering.link .a).exchange.isSome = true := by decide
theorem witness_RefusedOrdersChangeNothing :
    instrOrder (.read .b (data 1 2 640 0 0 1)) = some (.b, .read, data 1 2 640 0 0 1) ∧ (world.link .b).free = true ∧
    world.acceptance .b .read (data 1 2 640 0 0 1) = some (.address, [2, 128, 0, 0]) ∧ world.quiet = true ∧
    (world.link .b).chain = none ∧ (chained.link .b).free = true ∧
    (chained.acceptance .b .read (data 1 2 640 0 0 1)).isSome = true := by decide
/-- Checks 1 to 6: each failing condition, on frames and states that pass the checks before it. -/
theorem witness_AcceptanceRefusesInOrder :
    let f := data 1 2 10 0 0 1
    instrOrder (.read .b f) = some (.b, .read, f) ∧ (world.link .b).free = true ∧ f.size = 40 ∧
    (fieldFaults .read f).all (fun x => !x.2) = true ∧
    -- 1: a wrong length, a field, a chain indicator, another drive than the chain's, a ninth member
    { f with size := 39 }.size ≠ 40 ∧ (9, true) ∈ fieldFaults .read (data 1 2 10 0 0 0) ∧
    continues { order 1 0 with flags := 1 } = true ∧ OrderCode.quiesce.queued = false ∧
    (chained.link .b).free = true ∧ (chained.link .b).chain = some ⟨0, .d1, 1⟩ ∧ orderDrive f ≠ .d1 ∧
    ((chained.updLink .b (fun p => { p with chain := some ⟨0, .d2, 8⟩ })).link .b).chain = some ⟨0, .d2, 8⟩ ∧
    -- 2: a request of the host with the tag; 3: each mode
    (chained.drive .d1).queue.map (·.issuer) = [some ⟨1, .h2, .b⟩] ∧ loading.mode = .loading ∧
    world.mode = .online ∧ quiesced.mode = .quiesced ∧ OrderCode.read.queued = true ∧
    -- 4: a link of no host; 5: a link of another host than the authority's; 6: a drive not usable
    (world.updHost .h3 (fun x => { x with entry := entry 0 false })).owner .d = none ∧
    world.authorityHost = some .h1 ∧ world.owner .b ≠ some .h1 ∧
    ((driveIn .faulted).drive .d1).state.condition ≠ .ready ∧ ((driveIn .absent).drive .d1).state = .absent := by decide
/-- Checks 7 to 11 of a queued order, each the first to refuse it, and orders that pass. -/
theorem witness_AcceptanceRefusesInOrder_queued :
    let f := data 1 2 10 0 0 1
    let held := world.updDrive .d2 (fun dr => { dr with claim := ⟨some .h3, [], none⟩ })
    let fenced := { world with fences := world.fences.set .h2 ((world.fences.get .h2).set .d2 [⟨0, 9, .readWrite⟩]) }
    let full := world.updDrive .d2 (fun dr => { dr with queue := List.replicate 16 (request .read .queued) })
    let reports := world.updHost .h2 (fun x => { x with reserved := 16 })
    world.acceptance .b .read (data 1 2 640 0 0 1) = some (.address, [2, 128, 0, 0]) ∧
    world.acceptance .b .read (data 1 2 639 11 31 2) = some (.address, [2, 128, 0, 0]) ∧
    held.acceptance .b .read f = some (.claimed, [3, 0, 0, 0]) ∧
    fenced.acceptance .b .read f = some (.fence, [0, 10, 0, 255]) ∧
    full.acceptance .b .read f = some (.queueFull, [0, 0, 0, 0]) ∧
    reports.acceptance .b .read f = some (.reportFull, [16, 0, 0, 0]) ∧ world.accepts .b .read f = true ∧
    world.accepts .a .quiesce (order 1 0) = true := by decide
/-- Check 1 of immediate orders: each clause's fields just inside their ranges and just outside. -/
theorem witness_AcceptanceRefusesInOrder_immediate :
    let ok := fun c f => (fieldFaults c f).all (fun x => !x.2)
    let bad := fun c f o => (fieldFaults c f).contains (o, true)
    let o := fun form frames image => order 1 7 form frames image
    instrOrder (.claim .a (o 0 0 [])) = some (.a, .claim, o 0 0 []) ∧ OrderCode.claim.queued = false ∧
    instrOrder (.editFence .a (o 0 0 [])) = some (.a, .editFence, o 0 0 []) ∧
    instrOrder (.loadSegment .a (o 5 3 [])) = some (.a, .loadSegment, o 5 3 []) ∧
    (world.link .a).free = true ∧ ok .claim (o 0 0 []) ∧ bad .claim (order 1 8) 3 ∧ bad .beginLoad (order 1 1) 3 ∧
    ok .readHistory { order 1 0 with flags := 3 } ∧ bad .readSettings { order 1 0 with flags := 2 } 4 ∧
    bad .quiesce { order 1 0 with cylinder := 1 } 5 ∧ bad .quiesce { order 1 0 with length := 1 } 12 ∧
    ok .editHost (order 1 0 1 0 [4, 15, 1, 15, 1, 255]) ∧ bad .editHost (order 1 0 1 0 [4, 16]) 17 ∧
    bad .editHost (order 1 0 2 0 [1, 1]) 17 ∧ bad .editHost (order 1 0 3) 14 ∧
    ok .editFence (o 0 0 [1, 7, 1, 0, 0, 0, 9, 3]) ∧ bad .editFence (o 0 0 [1, 7, 1, 0, 0, 0, 9, 4]) 23 ∧
    bad .editFence (o 0 0 [1, 6]) 17 ∧ bad .editFence (o 0 0 [1, 7, 0, 1]) 19 ∧
    ok .editMap (o 1 0 [2, 135, 11, 95]) ∧ bad .editMap (o 1 0 [2, 136, 11, 95]) 16 ∧ bad .editMap (o 2 0 [0, 0, 12]) 18 ∧
    bad .editMap (o 2 0 [0, 0, 0, 1]) 19 ∧ ok .editMap (o 3 0 [0, 0, 0, 95]) ∧ bad .editMap (o 3 0 [0, 0, 0, 96]) 19 ∧
    bad .editMap (o 4 0 [1]) 16 ∧ bad .editMap (o 5 0 []) 14 ∧
    ok .loadSegment (o 5 3 []) ∧ bad .loadSegment (o 5 1 []) 15 ∧ ok .loadSegment (o 3 1 [4]) ∧
    bad .loadSegment (o 3 1 [5]) 16 ∧ ok .loadSegment (order 1 0 4 1 [0, 2]) ∧ bad .loadSegment (order 1 0 4 1 [0, 3]) 17 ∧
    ok .editProfile (order 1 0 2 1) ∧ bad .editSettings (order 1 0) 15 ∧ bad .readMap (o 0 0 [0, 1]) 17 := by decide
theorem witness_FramesOutsideAcceptance :
    (Instr.claim .a (order 8 1)).order? = some (.a, 6, order 8 1) ∧
    (answering.link .a).up = true ∧ (answering.link .a).exchange.isSome = true ∧
    (answering.link .a).offered.isSome = true ∧ (awaiting.link .a).exchange.isSome = true ∧
    (awaiting.link .a).offered = none ∧ (awaiting.link .a).busyTags = [] ∧ (world.link .a).free = true ∧
    world.quiet = true := by decide
theorem witness_ClaimIsCarriedOut : (world.link .a).free = true ∧ world.owner .a = some .h1 ∧
    world.check1 .a .claim (order 1 7) = none ∧ world.check2 .a (order 1 7) = none ∧ world.check3 .claim = none ∧
    world.quiet = true := by decide
theorem witness_ClaimWithNoticeIsCarriedOut :
    (claimed none []).accepts .a .claimWithNotice (order 1 1) = true ∧
    (claimed (some .h1) []).accepts .a .claimWithNotice (order 1 1) = true ∧
    (claimed (some .h2) [.h3, .h1]).accepts .a .claimWithNotice (order 1 1) = true ∧
    (claimed (some .h2) [.h3]).accepts .a .claimWithNotice (order 1 1) = true ∧
    (claimed (some .h2) [.h3, .h4, .h3]).accepts .a .claimWithNotice (order 1 1) = true ∧
    world.owner .a = some .h1 := by decide
theorem witness_ClaimsAreHandedOn :
    ((claimed (some .h2) []).drive .d1).claim.holder = some .h2 ∧
    ((claimed (some .h2) [.h1, .h3, .h4]).drive .d1).claim.waiting = .h1 :: [.h3, .h4] := by decide
theorem witness_YieldIsCarriedOut :
    (claimed (some .h2) []).accepts .b .yield (order 1 1) = true ∧ (claimed (some .h2) [.h3]).accepts .b .yield (order 1 1) = true ∧
    (claimed (some .h3) [.h2]).accepts .b .yield (order 1 1) = true ∧ (claimed none []).accepts .b .yield (order 1 1) = true ∧
    world.owner .b = some .h2 ∧ (claimed none []).quiet = true := by decide
theorem witness_ClaimsAreHandedOn_broken :
    (claimed none []).accepts .a .breakClaim (order 1 1) = true ∧
    (claimed (some .h2) [.h3]).accepts .a .breakClaim (order 1 1) = true ∧
    ((claimed (some .h2) [] (some 0)).drive .d1).claim.orphan.isSome = true ∧ (claimed none []).quiet = true := by decide
theorem witness_ReadOutsAndCheckRecordsAreAnswered_record : world.accepts .b .readCheckRecord (order 1 0) = true ∧
    world.owner .b = some .h2 ∧ world.host .h2 = some (HostState.fresh (entry 6 false)) ∧ world.quiet = true := by decide
theorem witness_StagingIsOpenedFilledAndAbandoned :
    loading.accepts .a .beginLoad (order 1 0) = true ∧ loading.accepts .a .abandonLoad (order 1 0) = true ∧
    (bundle.segments.map (·.key)).Nodup ∧ SegKey.settings ∈ bundle.segments.map (·.key) ∧
    SegKey.map .d0 ∉ bundle.segments.map (·.key) ∧ loading.quiet = true := by decide
/-- Link A IDLE with a LINK-BUSY answer offered, bounded by a wait. -/
def busyIdle (t : StallTimer) (s : State) : State :=
  s.updLink .a (fun p => { p with offered := some (.linkBusy 8), stall := some t })
theorem witness_ImagesAreAwaitedAndTaken_orders :
    loading.accepts .a .loadSegment (order 1 7 5 3) = true ∧ quiesced.accepts .a .editProfile (order 1 0 2 1) = true ∧
    quiesced.accepts .a .editSettings (order 1 0 0 1) = true ∧ quiesced.quiet = true ∧
    (quiesced.link .a).up = true ∧ (quiesced.link .a).exchange = none ∧ (loading.link .a).exchange = none ∧ (loading.link .a).up = true ∧
    loading.acceptance .a .loadSegment (order 1 7 5 3) = none ∧ quiesced.acceptance .a .editProfile (order 1 0 2 1) = none ∧
    (busyIdle ⟨.chain, 7⟩ quiesced).acceptance .a .editSettings (order 1 0 0 1) = none ∧
    ((busyIdle ⟨.linkBusy, 7⟩ quiesced).link .a).exchange = none := by decide
/-- A frame for each form of LOAD SEGMENT, with the last host, drive and type. -/
theorem witness_ImagesAreAwaitedAndTaken_keys :
    let f := fun form image => order 1 7 form 1 image
    (f 2 [4]).form = 2 ∧ imageByte (f 2 [4]) 16 = HostNo.code .h4 ∧ (f 3 [4]).form = 3 ∧
    imageByte (f 3 [4]) 16 = HostNo.code .h4 ∧ (f 3 [4]).drive.toNat = DriveNo.d7.toNat ∧ (f 4 []).form = 4 ∧
    imageByte (f 4 [0, 1]) 17 = 1 ∧ imageByte (f 4 [0, 2]) 17 = 2 ∧ (f 5 []).form = 5 ∧ (f 1 []).form = 1 := by decide
/-- Link A awaiting the second of three frames of a map, the third, a settings image, and a host segment. -/
def awaitingImage (o : ImageOrder) (n : Nat) (taken : List (List Byte)) : State :=
  { loading.updLink .a (fun p => { p with
      exchange := some (.order ⟨3, none, true, .awaitImage o n taken⟩), stall := some ⟨.image, 40⟩ }) with
    staging := some ⟨.a, []⟩ }
/-- R36 d, g: the image order that ends wait a), and the DATA frame that ends wait d), start wait d), which then bounds the
LINK-BUSY answer still offered; a wait g) that runs puts it off. -/
theorem test_image_wait_bounds_link_busy :
    let f := order 1 0 0 1
    let port := fun (s : State) => ((s.link .a).stall, (s.link .a).due)
    let frame := fun w => after (.imageDataTaken .a 3 1 [5]) ((awaitingImage (.loadSegment (.map .d0)) 3 [[]]).updLink .a
      (fun p => { p with offered := some (.linkBusy 8), stall := some ⟨w, 7⟩ }))
    port (after (.editSettings .a f) (busyIdle ⟨.chain, 7⟩ quiesced)) = (some ⟨.image, 40⟩, none) ∧
    port (after (.editSettings .a f) (busyIdle ⟨.linkBusy, 7⟩ quiesced)) = (some ⟨.linkBusy, 7⟩, some .image) ∧
    port (frame .image) = (some ⟨.image, 40⟩, none) ∧ port (frame .linkBusy) = (some ⟨.linkBusy, 7⟩, some .image) := by decide
theorem witness_ImagesAreAwaitedAndTaken_frames :
    ((awaitingImage (.loadSegment (.map .d0)) 3 [[]]).link .a).exchange =
      some (.order ⟨3, none, true, .awaitImage (.loadSegment (.map .d0)) 3 [[]]⟩) ∧
    (1 : BitVec 16).toNat = [([] : List Byte)].length ∧ [([] : List Byte)].length + 1 < 3 ∧
    ((awaitingImage .editSettings 1 []).link .a).offered = none ∧ 1 ≤ ([] : List (List Byte)).length + 1 ∧
    ((awaitingImage (.editProfile .d40) 1 []).link .a).toSend = [] ∧
    ((awaitingImage (.loadSegment (.host .h1)) 1 []).link .a).busyTags = [] ∧
    ((awaitingImage (.loadSegment (.host .h1)) 1 []).link .a).stall = some ⟨.image, 40⟩ ∧
    (awaitingImage (.loadSegment (.host .h1)) 1 []).staging = some ⟨.a, []⟩ ∧
    (segImageOf (.host .h1) ([[1, 1, 1, 0, 0, 0]] : List (List Byte)).flatten).1 = none ∧
    (segImageOf (.host .h1) ([[1, 1, 2, 0, 0, 0]] : List (List Byte)).flatten).1.isSome = true ∧
    ({ awaitingImage (.loadSegment (.host .h1)) 1 [] with staging := none } : State).staging = none ∧
    ({ awaitingImage (.loadSegment (.host .h1)) 1 [] with staging := some ⟨.b, []⟩ } : State).staging = some ⟨.b, []⟩ := by
  decide
/-- Settings staged at the ends of their ranges, profiles installed, and an EDIT SETTINGS image's frame waiting. -/
theorem witness_QueueAndHistoryLimitsAreKept_tables :
    let st : Settings := ⟨7, 255, 15, 15, 7, .round, 255, 255, 255, 255, PerDrive.const ⟨.correct, 15, true, true⟩⟩
    let s := { awaitingImage .editSettings 1 [] with
      profile40 := some (profile 500), profile80 := some (profile 639)
      staging := some ⟨.a, [⟨.settings, 1, .settings st⟩, ⟨.profile .d40, 2, .profile (profile 500)⟩]⟩
      pending := [.imageDataTaken .a 3 0 (settingsBytes st false ++ List.replicate 469 0)] }
    s.TableLaw ∧ ∃ t, step s = .next t := by
  refine ⟨⟨⟨by decide, by decide, by decide, by decide, by decide, by decide, by decide, by decide, by decide,
      fun d => by cases d <;> decide⟩, fun p hp => by cases hp; decide, fun p hp => by cases hp; decide,
    fun g hg x hx => ?_⟩, _, rfl⟩
  cases hg
  simp only [List.mem_cons, List.not_mem_nil, or_false] at hx
  rcases hx with rfl | rfl
  · refine ⟨fun u hu => ?_, fun p hp => by cases hp⟩
    cases hu
    exact ⟨by decide, by decide, by decide, by decide, by decide, by decide, by decide, by decide, by decide,
      fun d => by cases d <;> decide⟩
  · exact ⟨fun u hu => by (cases hu), fun p hp => by cases hp; decide⟩
/-- Drive 1 due with its patrol off, ONLINE after a RESUME, and the frame of settings that turn patrol on. -/
theorem witness_ImagesAreAwaitedAndTaken_patrol :
    let st := { world.settings with patrolInterval := 1, perDrive := PerDrive.const ⟨.correct, 7, false, true⟩ }
    let frame := settingsBytes st false ++ List.replicate 469 0
    let s := (world.updDrive .d1 (fun dr => { dr with patrolDue := true, patrolTimer := .expired })).updLink .a (fun p =>
      { p with exchange := some (.order ⟨3, some .h1, true, .awaitImage .editSettings 1 []⟩), stall := some ⟨.image, 9⟩ })
    firstFault (settingsImageFaults frame) = none ∧ s.quiet = true ∧ s.mode = .online ∧
    ((settingsOf frame).perDrive.get .d1).patrol = true ∧ (settingsOf frame).patrolInterval ≠ 0 ∧
    (s.settings.perDrive.get .d1).patrol = false ∧ (s.drive .d1).patrolDue = true ∧
    (∀ k, k ≠ .d1 → (s.drive k).patrolDue = false) ∧ (s.drive .d1).state = .ready ∧ (s.drive .d1).queue = [] ∧
    (s.drive .d1).map.isCopying (s.drive .d1).cursor = false ∧
    (s.drive .d1).cursor.cyl < (s.drive .d1).type.firstAlternate ∧ s.copy = none ∧
    (s.link .a).offered = none ∧ (s.link .a).toSend = [] ∧ (s.link .a).busyTags = [] := by
  refine ⟨by decide, by decide, by decide, by decide, by decide, by decide, by decide, fun k hk => ?_, by decide, by decide,
    by decide, by decide, by decide, by decide, by decide, by decide⟩
  cases k <;> first | exact absurd rfl hk | rfl
/-- R144: a due drive whose patrol EDIT SETTINGS turns on, the mode ONLINE, is given a PATROL. -/
theorem test_edit_settings_prompts_patrol :
    let st := { world.settings with patrolInterval := 1, perDrive := PerDrive.const ⟨.correct, 7, false, true⟩ }
    let s := world.updDrive .d1 (fun dr => { dr with patrolDue := true, patrolTimer := .expired })
    ((s.editSettings .a 3 st).settle.drive .d1).queue.map (·.kind) = [.patrol] := by decide
theorem witness_ReadOutsAndCheckRecordsAreAnswered :
    world.accepts .a .readMap (order 1 7) = true ∧ world.accepts .a .readSnapshot (order 1 0) = true ∧
    world.accepts .a .readHistory (order 1 0) = true ∧ world.accepts .a .readHistory { order 1 0 with flags := 2 } = true ∧
    world.accepts .a .readSettings (order 1 0) = true ∧ world.quiet = true := by decide
/-- A map with one entry, a history of one entry with a deferred track, a queued request, and both profiles. -/
theorem witness_ReadOutsAndCheckRecordsAreAnswered_images :
    let m := ((spared .active).drive .d5).map
    let s := { (seeking (request .read .positioning)).updDrive .d5 (fun dr =>
      { dr with deferred := [⟨⟨30, 4⟩, ⟨30, 4⟩⟩] }) with history := [HistEntry.fresh .d5 ⟨30, 4⟩ 0] }
    m.entries.length ≤ 96 ∧ m.pool.length = 96 ∧ (m.entries.map (·.retained)).flatten.length ≤ 96 ∧
    (m.entries[0]?).isSome = true ∧ s.history.length ≤ 64 ∧ (s.history[0]?).isSome = true ∧
    ((DriveNo.all.map (fun d => (s.drive d).deferred.map (fun x => (d, x.track)))).flatten)[0]? = some (.d5, ⟨30, 4⟩) ∧
    (∀ d ∈ DriveNo.all, (s.drive d).queue.length ≤ 16) ∧ ((s.drive .d5).queue[0]?).isSome = true ∧
    s.profile40 = some (profile 500) ∧ (profile 500).points.length = 8 ∧ (profile 700).points.length = 8 := by decide
/-- The refusals, and a bundle for each reason: `bundle` with one segment more, or one left out. -/
theorem witness_InvalidBundlesAreRefused :
    let plus := fun key image => (⟨.a, bundle.segments ++ [⟨key, 5, image⟩]⟩ : Staging)
    let map := fun es pool => plus (.map .d5) (.map ⟨some (7, .d80), es, pool⟩)
    let taken := fun a => (List.replicate 96 AltState.free).set a .assigned
    let e : Entry := ⟨⟨30, 4⟩, 13, .active, [], .loaded, 0⟩
    loading.accepts .a .endLoad (order 1 0) = true ∧ loading.staging = none ∧
    ({ loading with staging := some bundle } : State).accepts .b .endLoad (order 1 0) = true ∧ bundle.owner ≠ .b ∧
    (⟨.a, []⟩ : Staging).invalid = some (.noHost, 0) ∧ loading.quiet = true ∧
    (plus (.host .h2) (.host (entry 2 true))).invalid = some (.authorityCount, 0) ∧
    (⟨.a, bundle.segments.take 3⟩ : Staging).invalid = some (.profileMissing, 0) ∧
    (plus (.host .h2) (.host (entry 0 false))).invalid = some (.emptyGroup, 5) ∧
    (plus (.host .h2) (.host (entry 1 false))).invalid = some (.linkOwned, 5) ∧
    (⟨.a, bundle.segments.take 3 ++ [⟨.profile .d80, 4, .profile (profile 638)⟩]⟩ : Staging).invalid =
      some (.profileOrder, 4) ∧
    (plus (.fence .h2 .d5) (.fence [])).invalid = some (.noHost, 5) ∧
    (plus (.fence .h1 .d5) (.fence [⟨9, 8, .read⟩])).invalid = some (.extentOrder, 5) ∧
    (plus (.fence .h1 .d5) (.fence [⟨9, 640, .read⟩])).invalid = some (.extentRange, 5) ∧
    (map [{ e with primary := ⟨640, 0⟩ }] (taken 13)).invalid = some (.primaryRange, 5) ∧
    (map [e, { e with alt := 14 }] (taken 13)).invalid = some (.entryExists, 5) ∧
    (map [e, { e with primary := ⟨30, 5⟩ }] (taken 13)).invalid = some (.alternateShared, 5) ∧
    (map [e] (taken 12)).invalid = some (.poolMismatch, 5) ∧
    (map [{ e with state := .copying 1 }] (taken 13)).invalid = some (.copyingEntry, 5) ∧
    (map [{ e with state := .void (BitVec.allOnes 32) }] (taken 13)).invalid = some (.voidFull, 5) ∧
    (map [e] (taken 13)).invalid = none := by decide
/-- A bundle on a string whose drives have no record, and one on a string of READY, INCOMPATIBLE and STARTING drives. -/
theorem witness_ValidBundlesAreInstalled :
    let s := { loading with staging := some bundle }
    let maps : List Segment := [⟨.map .d3, 5, .map { SpareMap.empty with bound := some (8, .d80) }⟩,
      ⟨.map .d4, 6, .map { SpareMap.empty with bound := some (7, .d40) }⟩]
    let g : Staging := ⟨.a, bundle.segments ++ maps⟩
    let t := { ((world.updDrive .d1 (fun dr => { dr with state := .incompatible, reason := some .type })).updDrive .d2
      (fun dr => { dr with state := .starting })) with mode := .loading, staging := some g }
    s.accepts .a .endLoad (order 1 0) = true ∧ s.calm = true ∧ s.staging = some bundle ∧ bundle.owner = .a ∧
    bundle.invalid = none ∧ (s.drive .d1).cap = none ∧ (s.drive .d1).patrolDue = false ∧
    t.accepts .a .endLoad (order 1 0) = true ∧ t.calm = true ∧ g.owner = .a ∧ g.invalid = none ∧
    (t.drive .d0).state = .ready ∧ (t.drive .d0).cap = some ⟨.d80, 7⟩ ∧ typeOfCode .d80 = some .d80 ∧
    g.map? .d0 = none ∧ (g.map? .d3).isSome = true ∧ (g.map? .d4).isSome = true ∧ (t.drive .d1).state = .incompatible ∧
    (t.drive .d2).state = .starting := by decide
/-- The four clauses of EDIT HOST SET: a link of another host, no link, authority given up, and host 1's own links. -/
theorem witness_HostEntriesAreSetAndRemoved_set :
    let f := fun (links authority : Byte) => order 1 0 1 0 [1, links, authority]
    quiesced.accepts .a .editHost (f 3 1) = true ∧ HostNo.ofNat? (imageByte (f 3 1) 16) = some .h1 ∧
    quiesced.host .h2 = some (HostState.fresh (entry 6 false)) ∧ (entry 6 false).links &&& 3 ≠ 0 ∧
    quiesced.accepts .a .editHost (f 0 1) = true ∧ quiesced.accepts .a .editHost (f 1 0) = true ∧
    quiesced.accepts .a .editHost (f 1 1) = true ∧ quiesced.authorityHost = some .h1 ∧
    (hostEntryOf (fun i => imageByte (f 1 1) (16 + i))).authority = true ∧ quiesced.calm = true ∧
    quiesced.drained = true ∧ quiesced.host .h4 = none ∧
    HostNo.ofNat? (imageByte (order 1 0 1 0 [4, 0, 0]) 16) = some .h4 := by decide
theorem witness_HostEntriesAreSetAndRemoved_removed :
    quiesced.accepts .a .editHost (order 1 0 2 0 [1]) = true ∧ quiesced.authorityHost = some .h1 ∧
    quiesced.accepts .a .editHost (order 1 0 2 0 [4]) = true ∧ quiesced.host .h4 = none ∧
    quiesced.accepts .a .editHost (order 1 0 2 0 [3]) = true ∧ (quiesced.host .h3).isSome = true ∧
    HostNo.ofNat? (imageByte (order 1 0 2 0 [4]) 16) = some .h4 := by decide
/-- Host 3 holds drive 1, for which host 2 waits; and its path group may be set to link C, down, when host 2 has B alone. -/
theorem witness_HostEntriesAreSetAndRemoved_claims :
    let s := { claimed (some .h3) [.h2] with mode := .quiesced }
    let t := (s.updHost .h2 (fun x => { x with entry := entry 2 false })).updLink .c (fun _ => LinkPort.idle false)
    s.accepts .a .editHost (order 1 0 2 0 [3]) = true ∧ s.authorityHost = some .h1 ∧ (s.host .h3).isSome = true ∧
    (s.drive .d1).claim.holder = some .h3 ∧ (s.drive .d1).claim.waiting.filter (· != .h3) = [.h2] ∧
    (s.host .h2).isSome = true ∧ s.reachable .h2 = true ∧ s.calm = true ∧
    t.accepts .a .editHost (order 1 0 1 0 [3, 4]) = true ∧ (t.drive .d1).claim.holder = some .h3 ∧ t.reachable .h3 = true ∧
    (Link.all.any (fun k => (hostEntryOf (fun i => imageByte (order 1 0 1 0 [3, 4]) (16 + i))).owns k && (t.link k).up)) =
      false := by decide
theorem witness_FencesAreEdited :
    world.accepts .a .editFence (order 1 2 0 0 [4, 2, 1, 0, 10, 0, 20, 1]) = true ∧ world.host .h4 = none ∧
    world.accepts .a .editFence (order 1 2 0 0 [2, 2, 1, 0, 20, 0, 10, 1]) = true ∧
    world.accepts .a .editFence (order 1 2 0 0 [2, 2, 1, 0, 20, 2, 128, 1]) = true ∧
    HostNo.ofNat? (imageByte (order 1 2 0 0 [2, 2, 1, 0, 20, 2, 127, 1]) 16) = some .h2 ∧ world.quiet = true := by decide
theorem witness_MapEntriesAreEdited_added :
    world.accepts .a .editMap (order 1 5 1 0 [2, 127, 11, 95]) = true ∧
    world.accepts .a .editMap (order 1 5 1 0 [2, 128, 0, 0]) = true ∧ world.quiet = true := by decide
theorem witness_MapEntriesAreEdited_removed :
    world.accepts .a .editMap (order 1 5 2 0 [0, 30, 4]) = true ∧
    ((spared (.copying 0)).drive .d5).map.entry? ⟨30, 4⟩ = some ⟨⟨30, 4⟩, 13, .copying 0, [], .host, 0⟩ ∧
    ((spared .active).drive .d5).map.entry? ⟨30, 4⟩ = some ⟨⟨30, 4⟩, 13, .active, [], .host, 0⟩ ∧
    (spared (.copying 0)).accepts .a .editMap (order 1 5 2 0 [0, 30, 4]) = true ∧
    (spared .active).accepts .a .editMap (order 1 5 2 0 [0, 30, 4]) = true ∧
    ((spared .active).drive .d5).queue = [] ∧ (spared .active).quiet = true ∧
    (spared .active).accepts .a .editMap (order 1 5 3 0 [0, 0, 0, 95]) = true := by decide
theorem witness_MapsAreRebound :
    let s := fun (c : Option Capability) (st : DriveState) => (driveIn st).updDrive .d1 (fun dr => { dr with cap := c })
    let resetting := (copying 0 (reassigning .transferring)).updDrive .d5 (fun dr => { dr with queue := [] })
    (s none .starting).accepts .a .editMap (order 1 1 4) = true ∧
    (s (some ⟨.unknown, 7⟩) .incompatible).accepts .a .editMap (order 1 1 4) = true ∧
    (s (some ⟨.d40, 999999⟩) .incompatible).accepts .a .editMap (order 1 1 4) = true ∧ typeOfCode .d40 = some .d40 ∧
    fullQueue.accepts .a .editMap (order 1 1 4) = true ∧ (s (some ⟨.d40, 0⟩) .ready).quiet = true ∧
    ((s (some ⟨.d40, 0⟩) .ready).drive .d1).queue = [] ∧ resetting.accepts .a .editMap (order 1 5 4) = true ∧
    (resetting.drive .d5).queue = [] ∧ resetting.copy.map (·.drive) = some .d5 ∧
    (resetting.drive .d5).cap = some ⟨.d80, 7⟩ := by decide
theorem witness_ModeFollowsQuiesceAndResume :
    world.accepts .a .quiesce (order 1 0) = true ∧ quiesced.accepts .a .quiesce (order 1 0) = true ∧
    world.accepts .a .resume (order 1 0) = true ∧ quiesced.accepts .a .resume (order 1 0) = true ∧
    ({ world with mode := .draining, resetting := true } : State).accepts .a .resume (order 1 0) = true ∧
    quiesced.quiet = true ∧ (quiesced.drive .d0).deferred = [] ∧ (quiesced.drive .d0).patrolDue = false := by decide
/-- A deferred track at RESUME, with room and behind a full queue, and a request that leaves a full queue. -/
theorem witness_ModeFollowsQuiesceAndResume_deferred :
    let s := fun t : State => t.updDrive .d1 (fun dr => { dr with deferred := [⟨⟨30, 4⟩, ⟨30, 4⟩⟩] })
    (s quiesced).accepts .a .resume (order 1 0) = true ∧ ((s quiesced).drive .d1).queue = [] ∧
    (s { fullQueue with mode := .draining }).accepts .a .resume (order 1 0) = true ∧
    request .read .queued ∈ ((s fullQueue).drive .d1).queue ∧ ((s fullQueue).drive .d1).queue.length = 16 ∧
    (s fullQueue).mode = .online ∧ ((s fullQueue).drive .d1).deferred = [⟨⟨30, 4⟩, ⟨30, 4⟩⟩] ∧
    (fullQueue.drive .d1).deferred = [] := by decide
theorem witness_StringResetClearsTheWork : world.accepts .a .stringReset (order 1 0) = true ∧ world.calm = true ∧
    (world.engine .e0).service = none ∧ (world.engine .e1).service = none ∧ world.copy = none ∧
    (world.drive .d0).patrolDue = false := by decide
/-- An engine with a sector under the head, one without, for a copy; and the sector's end under a STRING RESET. -/
theorem witness_StringResetClearsTheWork_engines :
    let s := fun p => (copying 5 (reassigning .transferring)).updEngine .e0 (fun _ =>
      { phase p with service := some ⟨0, .d5, .reassign, some ⟨9, .h2, .b⟩, none, ⟨30, 4, 0⟩, ⟨30, 4⟩, ⟨30, 4⟩, some 1, 31, 0⟩ })
    let u := fun writes : Bool => { ((s .streaming).updEngine .e0 (fun g =>
      { g with writing := writes, ending := some .stringReset })).updDrive .d5 (fun dr =>
        { dr with state := .transferring, queue := [] }) with resetting := true, mode := .draining }
    (s .streaming).accepts .a .stringReset (order 1 0) = true ∧ (s .awaiting).accepts .a .stringReset (order 1 0) = true ∧
    ((s .streaming).engine .e1).ending = none ∧ (∀ d ∈ DriveNo.all, ((s .awaiting).drive d).patrolDue = false) ∧
    ((s .streaming).engine .e0).phase = .streaming ∧ ((s .awaiting).engine .e0).phase ≠ .streaming ∧
    (s .awaiting).copy.map (·.request) = some 0 ∧ ((s .awaiting).engine .e0).service.map (·.request) = some 0 ∧
    ((u true).engine .e0).service.map (·.current) = some (some 1) ∧ ((u true).engine .e0).writing = true ∧
    ((u false).engine .e0).writing = false ∧ ((u true).engine .e0).ending = some .stringReset ∧ (u true).resetting = true ∧
    (∀ d ∈ DriveNo.all, ((u true).drive d).queue = [] ∧ ((u true).drive d).patrolDue = false) ∧
    (u true).copy.map (·.request) = some 0 ∧ ReqKind.reassign.reassigns = true ∧ ((u true).engine .e1).ending = none ∧
    ((u true).drive .d5).state = .transferring ∧ ((u true).drive .d5).recalDue = false := by decide
theorem witness_DrivesAreTakenOffline :
    (driveIn .offline).accepts .a .driveOffline (order 1 1) = true ∧ (driveIn .offline).quiet = true ∧
    world.accepts .a .driveOffline (order 1 1) = true ∧ world.engineOn .d1 = none ∧
    (entry 6 false).receives .e .d1 = true ∧
    (serving (request .read .transferring) (phase .streaming) 16).accepts .a .driveOffline (order 1 5) = true ∧
    (serving (request .read .transferring) (phase .streaming) 16).engineOn .d5 = some .e0 := by decide
/-- A READ being served with no sector under the head, with a checked sector and with none, and a second READ queued. -/
theorem witness_DrivesAreTakenOffline_completions :
    let r := request .read .transferring
    let s := fun b => (serving r (phase .awaiting false b) 16).updDrive .d5 (fun dr =>
      { dr with queue := dr.queue ++ [{ request .read .queued with id := 1 }] })
    (s .empty).accepts .a .driveOffline (order 1 5) = true ∧ ((s .empty).drive .d5).state ≠ .offline ∧
    (∀ r ∈ ((s .empty).drive .d5).queue, r.marked = false) ∧ (s .empty).engineOn .d5 = some .e0 ∧
    ((s .empty).engine .e0).service.map (fun v => (v.request, v.kind)) = some (r.id, r.kind) ∧
    ((s .empty).engine .e0).phase ≠ .streaming ∧ ((s .empty).engine .e0).ending ≠ some .stringReset ∧
    ((s (.full 31 [])).engine .e0).buf1 = .full 31 [] ∧ ((s .empty).engine .e0).cut = false ∧
    ((s .empty).engine .e0).buf1 = .empty ∧ ((s .empty).engine .e0).buf2 = .empty ∧
    r ∈ ((s .empty).drive .d5).queue ∧ (((s .empty).drive .d5).queue.map (·.id)).Nodup ∧ r.chain = none ∧
    ((s .empty).host .h2).isSome = true := by decide
/-- A history entry whose AUTO-REASSIGN waits in the queue when the drive goes OFFLINE, and when it FAILS. -/
theorem witness_DriveFailuresEndTheWork_pending :
    let r : Request := { reassigning .queued with issuer := none, kind := .autoReassign, histKey := some ⟨30, 4⟩ }
    let s := { (driveIn .recalibrating).updDrive .d1 (fun dr => { dr with queue := [r] }) with
      history := [{ HistEntry.fresh .d1 ⟨30, 4⟩ 0 with sparePending := true }] }
    (s.drive .d1).state = .recalibrating ∧ r ∈ (s.drive .d1).queue ∧ r.kind = .autoReassign ∧ r.histKey = some ⟨30, 4⟩ ∧
    s.copy = none ∧ s.accepts .a .driveOffline (order 1 1) = true ∧ s.engineOn .d1 = none ∧
    (after (.fault .d1) s).history.map (fun x => (x.drive, x.track)) = [(.d1, ⟨30, 4⟩)] ∧
    (after (.driveOffline .a (order 1 1)) s).history.map (fun x => (x.drive, x.track)) = [(.d1, ⟨30, 4⟩)] := by decide
/-- FAULTED, OFFLINE, another state, and OFFLINE under an active fault line while an engine finishes its sector. -/
theorem witness_DrivesAreBroughtOnline :
    let s := (serving (request .read .transferring) { phase .streaming with ending := some .offline } 16).updDrive .d5
      (fun dr => { dr with state := .offline, pos := none, slot := none, orientTimer := none })
    world.accepts .a .driveOnline (order 1 1) = true ∧ world.quiet = true ∧
    (driveIn .faulted).accepts .a .driveOnline (order 1 1) = true ∧
    (driveIn .offline).accepts .a .driveOnline (order 1 1) = true ∧ s.accepts .a .driveOnline (order 1 5) = true ∧
    (s.drive .d5).state = .offline ∧ s.engineOn .d5 = some .e0 ∧ (s.engine .e0).ending = some .offline ∧
    (s.drive .d5).queue = [request .read .transferring] ∧ (s.host .h2).isSome = true := by decide
theorem witness_QueuedOrdersJoinTheirQueue :
    dataOrder (.reassignFill .b (order 1 2 2)) = some (.b, .reassign, .fill, .reassign, order 1 2 2) ∧
    world.accepts .b .reassign (order 1 2 2) = true ∧ world.accepts .b .read (data 1 2 639 11 31 1) = true ∧
    world.accepts .b .write (data 1 2 0 0 0 32) = true ∧ world.accepts .b .verify (data 1 2 0 0 0 32) = true ∧
    world.accepts .b .update { data 1 2 0 0 0 1 with offset := 511, length := 1 } = true ∧
    world.owner .b = some .h2 ∧ continues (data 1 2 0 0 0 32) = false ∧ (world.link .b).chain = none ∧
    (driveIn .recalibrating).accepts .b .read (data 1 1 0 0 0 32) = true ∧ (driveIn .recalibrating).quiet = true := by decide
/-- A chain of seven members may take its eighth. -/
def sevenMembers : State := chained.updLink .b (fun p => { p with chain := some ⟨0, .d1, 7⟩ })
theorem witness_QueuedOrdersJoinTheirQueue_chains :
    world.accepts .b .read (data 1 1 10 0 0 1 1) = true ∧ continues (data 1 1 10 0 0 1 1) = true ∧
    (world.link .b).chain = none ∧ world.quiet = true ∧ (sevenMembers.link .b).chain = some ⟨0, .d1, 7⟩ ∧
    sevenMembers.accepts .b .read (data 2 1 10 0 0 1 1) = true ∧ sevenMembers.accepts .b .read (data 2 1 10 0 0 1) = true ∧
    continues (data 2 1 10 0 0 1) = false ∧ ((sevenMembers.drive .d1).member? 0 1).isSome = true ∧
    sevenMembers.owner .b = some .h2 ∧ sevenMembers.quiet = true := by decide
theorem witness_ReadyDrivesStartAtOnce :
    dataOrder (.read .b (data 1 1 639 11 31 1)) = some (.b, .read, .new, .read, data 1 1 639 11 31 1) ∧
    world.accepts .b .read (data 1 1 639 11 31 1) = true ∧ world.owner .b = some .h2 ∧
    continues (data 1 1 639 11 31 1) = false ∧ (world.link .b).chain = none ∧ world.quiet = true ∧
    (world.drive .d1).state = .ready ∧ (world.drive .d1).queue = [] ∧
    (world.drive .d1).map.isCopying ⟨639, 11⟩ = false ∧ world.copy = none ∧ (world.drive .d1).cause = none ∧
    (world.drive .d1).reason = none := by decide
/-- Three QUEUED requests: the second's passes have reached P, the third is the released successor, the last host's run
is K long; and a drive on which a selection is made, of a READ, of a PATROL alone and of a reassignment. -/
theorem witness_SelectionsChooseByRule :
    let q := fun (id passes : Nat) (h : HostNo) =>
      ({ request .read .queued with id := id, passes := passes, issuer := some ⟨9, h, .b⟩ } : Request)
    let el := [q 0 0 .h2, q 1 8 .h3, q 2 0 .h1]
    let near := [q 0 0 .h2, q 1 0 .h3, { q 2 0 .h3 with start := ⟨600, 0, 0⟩ }]
    let s := fun queue => world.updDrive .d5 (fun dr => { dr with queue := queue })
    let run := (s near).updDrive .d5 (fun dr => { dr with lastHost := some .h2, runLength := 4 })
    let next := (s el).updDrive .d5 (fun dr => { dr with successor := some 2 })
    let move := { q 3 0 .h2 with kind := .reassign, start := ⟨30, 4, 0⟩, count := 32 }
    (next.drive .d5).successor = some 2 ∧ (∀ x ∈ el.take 2, x.id ≠ 2) ∧
    (∀ x ∈ el, ((s el).drive .d5).successor ≠ some x.id) ∧ (s el).settings.forced ≤ (q 1 8 .h3).passes ∧
    (∀ x ∈ el.take 1, x.passes < (s el).settings.forced) ∧ (∀ x ∈ near, x.passes < run.settings.forced) ∧
    0 < run.settings.rotation ∧ run.settings.rotation ≤ (run.drive .d5).runLength ∧
    (q 1 0 .h3).issuer.map (·.host) ≠ (run.drive .d5).lastHost ∧
    run.score .d5 (q 1 0 .h3) ≤ run.score .d5 { q 2 0 .h3 with start := ⟨600, 0, 0⟩ } ∧
    (s near).score .d5 (q 0 0 .h2) ≤ (s near).score .d5 (q 1 0 .h3) ∧
    ((s el).drive .d5).state = .ready ∧ ((s el).drive .d5).holder = none ∧ (world.drive .d5).state = .ready ∧
    (world.choose .d5 [] = none) ∧ ((s el).choose .d5 el).map (·.id) = some 1 ∧ (s el).copy = none ∧
    ((s [move]).choose .d5 [move]) = some move ∧ move.kind.reassigns = true ∧
    ((orienting (request .read .orienting) 0).drive .d5).state ≠ .ready ∧
    (((s el).updDrive .d5 (fun dr => { dr with map := ((spared (.copying 0)).drive .d5).map })).drive .d5).map.isCopying
      (q 0 0 .h2).next.track = true := by decide
/-- A PATROL that meets a copy, behind a READ. -/
theorem witness_SelectionsChooseByRule_skipped :
    let p : Request := { reassigning .queued with id := 1, issuer := none, kind := .patrol }
    let s := (spared (.copying 0)).updDrive .d5 (fun dr =>
      { dr with queue := [{ request .read .queued with start := ⟨31, 0, 0⟩ }, p] })
    p ∈ (s.drive .d5).queue ∧ (s.drive .d5).state = .ready ∧ (s.drive .d5).holder = none ∧ p.kind = .patrol ∧
    p.state = .queued ∧ (s.drive .d5).map.isCopying p.next.track = true ∧ s.copy = none ∧
    ((s.drive .d5).queue.map (·.id)).Nodup ∧ (∀ x ∈ (s.drive .d5).queue, x.kind = .patrol → x.id = p.id) ∧
    (s.drive .d5).queue.length < 16 := by decide
/-- NEW without an entry, with and without a FREE alternate; NEW of ACTIVE and VOID entries; FILL of a VOID and an
ACTIVE entry. -/
theorem witness_ReassignmentsBeginAtTheirChoice :
    let s := world.updDrive .d1 (fun dr => { dr with map := { dr.map with pool := List.replicate 96 .retired } })
    let f := fun form => { order 1 5 form with cylinder := 30, head := 4 }
    world.accepts .b .reassign (order 1 1 1) = true ∧ world.owner .b = some .h2 ∧ continues (order 1 1 1) = false ∧
    (world.link .b).chain = none ∧ world.quiet = true ∧ world.copy = none ∧ (world.drive .d1).state = .ready ∧
    (world.drive .d1).queue = [] ∧ (world.drive .d1).map.entry? ⟨0, 0⟩ = none ∧
    (world.drive .d1).map.lowestFree = some 0 ∧ (s.drive .d1).map.lowestFree = none ∧
    s.accepts .b .reassign (order 1 1 1) = true ∧ s.quiet = true ∧ (s.drive .d1).patrolDue = false ∧
    (spared .active).accepts .b .reassign (f 1) = true ∧ (spared (.void 5)).accepts .b .reassign (f 2) = true ∧
    (spared .active).quiet = true ∧ (spared (.void 5)).copy = none ∧ ((spared .active).drive .d5).queue = [] ∧
    ((spared .active).drive .d5).map.entry? ⟨30, 4⟩ = some ⟨⟨30, 4⟩, 13, .active, [], .host, 0⟩ ∧
    ((spared (.void 5)).drive .d5).map.entry? ⟨30, 4⟩ = some ⟨⟨30, 4⟩, 13, .void 5, [], .host, 0⟩ ∧
    ((spared .active).drive .d5).map.lowestFree = some 0 ∧ EntryState.active.valid ≠ 0 ∧ (EntryState.void 5).valid ≠ 0 ∧
    ((spared .active).drive .d5).state = .ready ∧ ((spared .active).drive .d5).patrolDue = false := by decide
/-- NEW of a VOID entry with an empty set, NEW with an entry and no alternate FREE, and an AUTO-REASSIGN with and without a
FREE alternate. -/
theorem witness_ReassignmentsBeginAtTheirChoice_rest :
    let f := { order 1 5 1 with cylinder := 30, head := 4 }
    let out := fun t : State => t.updDrive .d5 (fun dr => { dr with map := { dr.map with pool := dr.map.pool.map (fun x =>
      if x = .free then .retired else x) } })
    let r : Request := { reassigning .queued with issuer := none, kind := .autoReassign, histKey := some ⟨30, 4⟩ }
    (spared (.void 0)).RequestLaw ∧ (spared (.void 0)).accepts .b .reassign f = true ∧ (spared (.void 0)).quiet = true ∧
    ((spared (.void 0)).drive .d5).map.entry? ⟨30, 4⟩ = some ⟨⟨30, 4⟩, 13, .void 0, [], .host, 0⟩ ∧
    ((spared (.void 0)).drive .d5).map.lowestFree = some 0 ∧ ((spared (.void 0)).drive .d5).patrolDue = false ∧
    (out (spared .active)).accepts .b .reassign f = true ∧ (out (spared .active)).quiet = true ∧
    ((out (spared .active)).drive .d5).map.lowestFree = none ∧
    ((out (spared .active)).drive .d5).map.entry? ⟨30, 4⟩ = some ⟨⟨30, 4⟩, 13, .active, [], .host, 0⟩ ∧
    r.form = .new ∧ r.kind = .autoReassign ∧ (world.drive .d5).map.lowestFree = some 0 ∧
    (world.drive .d5).map.entry? r.start.track = none ∧ ((spared .active).drive .d5).map.lowestFree = some 0 ∧
    EntryState.active.valid ≠ 0 ∧ r.id < (seeking r).nextRequest :=
  ⟨(reportLaw_of_holds (by decide)).2, by decide⟩
/-- The last copied sector makes the set full, or sector 1 stays void; another AUTO-REASSIGN of the track and a HELD
READ wait. -/
theorem witness_CopiesEnd :
    let r := reassigning .transferring
    let s := fun v => (copying v r).updDrive .d5 (fun dr => { dr with queue := dr.queue ++
      [{ reassigning .queued with id := 1, issuer := none, kind := .autoReassign },
        { request .read .held with id := 2 }] })
    let c : CopyRecord := ⟨0, .reassign, r.issuer, .new, .d5, ⟨30, 4⟩, ⟨30, 4⟩, 13, SectorSet.all, 0, 0, .read, []⟩
    (s 5).copy = some c ∧ ((s 5).drive .d5).map.entry? ⟨30, 4⟩ = some ⟨⟨30, 4⟩, 13, .copying 5, [], .host, 0⟩ ∧
    ((s (BitVec.allOnes 32)).drive .d5).map.entry? ⟨30, 4⟩ =
      some ⟨⟨30, 4⟩, 13, .copying (BitVec.allOnes 32), [], .host, 0⟩ ∧
    (((s 5).drive .d5).map.entries.map (·.primary)).Nodup ∧ r ∈ ((s 5).drive .d5).queue ∧ r.id = c.request ∧
    r.id < (s 5).nextRequest ∧ (((s 5).drive .d5).queue.map (·.id)).Nodup ∧ r.chain = none ∧
    ((s 5).host .h2).isSome = true ∧ (entry 6 false).receives .s .d5 = true ∧ (entry 6 false).inhibit = false := by decide
/-- The REASSIGN of a copy, marked for removal. -/
theorem witness_CopiesEnd_marked :
    let r := { reassigning .transferring with marked := true }
    let s := copying 5 r
    s.copy.map (fun c => (c.drive, c.logical, c.request)) = some (.d5, ⟨30, 4⟩, r.id) ∧ r ∈ (s.drive .d5).queue ∧
    r.id < s.nextRequest ∧ ((s.drive .d5).queue.map (·.id)).Nodup ∧ r.chain = none ∧ r.kind = .reassign ∧
    r.issuer.map (·.host) = some .h2 ∧ (s.host .h2).isSome = true ∧
    (s.drive .d5).map.entry? ⟨30, 4⟩ = some ⟨⟨30, 4⟩, 13, .copying 5, [], .host, 0⟩ := by decide
/-- FAULT at a drive that orients for its copy, the third seek check, and STRING RESET. -/
theorem witness_CopiesAreAborted :
    let r := reassigning .orienting
    let q := { reassigning .positioning with seekChecks := 2 }
    let s := copying 5 r
    let t := (copying 5 q).updDrive .d5 (fun dr => { dr with state := .moving, seekTimer := some 120 })
    s.ReportLaw ∧ t.ReportLaw ∧ s.copy.map (·.drive) = some .d5 ∧
    (s.drive .d5).map.entry? ⟨30, 4⟩ = some ⟨⟨30, 4⟩, 13, .copying 5, [], .host, 0⟩ ∧ (EntryState.copying 5).valid = 5 ∧
    r ∈ (s.drive .d5).queue ∧ s.copy.map (·.request) = some r.id ∧ (s.drive .d5).state = .orienting ∧
    (t.drive .d5).state = .moving ∧ (t.drive .d5).holder = some q ∧ q ∈ (t.drive .d5).queue ∧
    s.accepts .a .stringReset (order 1 0) = true ∧ (s.engine .e0).service = none ∧ (s.engine .e1).service = none ∧
    (s.drive .d5).patrolDue = false ∧ (entry 6 false).receives .s .d5 = true ∧ (5 : SectorSet) ≠ BitVec.allOnes 32 :=
  ⟨reportLaw_of_holds (by decide), reportLaw_of_holds (by decide), by decide, by decide, by decide, by decide, by decide,
    by decide, by decide, by decide, by decide, by decide, by decide, by decide, by decide, by decide, by decide⟩
/-- Every clause of the link signals: up, down with its host reachable, down with it cut off, and a transfer lost. -/
theorem witness_LinkSignalsAreFollowed :
    let down := fun l => world.updLink l (fun _ => LinkPort.idle false)
    let s := offering false none none (serving (request .read .transferring) (phase .streaming) 16)
    (world.link .a).up = true ∧ ((down .b).link .b).up = false ∧ (down .b).owner .b = some .h2 ∧
    (down .b).reachable .h2 = true ∧ (down .d).owner .d = some .h3 ∧ (down .d).reachable .h3 = false ∧
    (chained.link .b).chain = some ⟨0, .d1, 1⟩ ∧ ((claimed (some .h3) []).drive .d1).claim.holder = some .h3 ∧
    world.owner .d = some .h3 ∧ (entry 8 false).owns .d = true ∧ (entry 8 false).owns .a = false ∧
    (entry 8 false).owns .b = false ∧ (entry 8 false).owns .c = false ∧
    (s.link .b).exchange = some (.transfer .e0 9 false) ∧ (s.engine .e0).service.isSome = true ∧
    (s.engine .e0).phase = .streaming ∧ (s.engine .e0).ending = none ∧ (s.link .b).up = true := by decide
/-- A transfer on link B with no sector under the head, of a READ that host 2 sent on link C. -/
theorem witness_LinkSignalsAreFollowed_transfer :
    let r := { request .read .transferring with issuer := some ⟨9, .h2, .c⟩ }
    let s := offering false none none ((serving r (phase .awaiting) 16).updHost .h2 (fun x => { x with reserved := 1 }))
    s.ReportLaw ∧ (s.link .b).up = true ∧ (s.link .b).exchange = some (.transfer .e0 9 false) ∧
    (s.engine .e0).service.map (fun v => (v.request, v.drive, v.link)) = some (0, .d5, some .b) ∧
    (s.engine .e0).phase ≠ .streaming ∧ (s.engine .e0).ending = none ∧ (s.drive .d5).request? 0 = some r ∧
    (s.link .b).chain = none ∧ r.kind.wholeTrack = false ∧ r.marked = false ∧ r.issuer = some ⟨9, .h2, .c⟩ :=
  ⟨reportLaw_of_holds (by decide), by decide⟩
theorem witness_ResetClearsTheLinksWork :
    let s := offering false none none (serving (request .read .transferring) (phase .streaming) 16)
    (chained.link .b).up = true ∧ (chained.link .b).exchange = none ∧ chained.copy = none ∧
    (chained.drive .d1).queue.map (·.state) = [.bound] ∧ (s.link .b).exchange = some (.transfer .e0 9 false) ∧
    (s.engine .e0).service.map (·.link) = some (some .b) ∧ (s.engine .e0).phase = .streaming ∧
    (s.engine .e0).ending = none ∧ (s.engine .e1).service = none ∧ (s.link .b).up = true := by decide
/-- The requests accepted on link B: one ORIENTING, one TRANSFERRING with a sector under the head and without, and the
member of an open chain. -/
theorem witness_ResetClearsTheLinksWork_requests :
    let law := fun s : State => s.updHost .h2 (fun x => { x with reserved := 1 })
    let s := fun p => offering false none none (law (serving (request .read .transferring) (phase p) 16))
    let o := law (orienting (request .read .orienting) 0)
    let m := law (seeking (request .read .positioning))
    (s .streaming).ReportLaw ∧ (s .awaiting).ReportLaw ∧ o.ReportLaw ∧ m.ReportLaw ∧ chained.ReportLaw ∧
    (∀ t ∈ [s .streaming, s .awaiting, o, m, chained], (t.link .b).up = true ∧ t.copy = none ∧
      (∀ d ∈ DriveNo.all, (t.drive d).deferred = []) ∧ (t.engine .e0).ending = none ∧ (t.engine .e1).ending = none) ∧
    (∀ t ∈ [s .streaming, s .awaiting], (t.drive .d5).queue = [request .read .transferring] ∧ t.engineOf 0 = some .e0 ∧
      (t.link .b).exchange = some (.transfer .e0 9 false) ∧ (t.link .b).chain = none ∧
      (t.engine .e0).service.map (fun v => (v.request, v.drive, v.link)) = some (0, .d5, some .b) ∧
      (t.engine .e1).service = none ∧ (t.drive .d5).state = .transferring ∧ (t.drive .d5).recalDue = false) ∧
    (request .read .transferring).cameOn .b = true ∧ ((s .streaming).engine .e0).phase = .streaming ∧
    ((s .awaiting).engine .e0).phase ≠ .streaming ∧ (o.link .b).exchange = none ∧ (m.link .b).exchange = none ∧
    (o.drive .d5).queue = [request .read .orienting] ∧ (m.drive .d5).queue = [request .read .positioning] ∧
    (∀ t ∈ [o, m], (t.engine .e0).service = none ∧ (t.engine .e1).service = none ∧ t.tagInUse .h2 9 = true) ∧
    (chained.link .b).chain = some ⟨0, .d1, 1⟩ ∧ (chained.link .b).exchange = none ∧
    (chained.drive .d1).queue.map (fun r => (r.chain, r.state, r.cameOn .b)) = [(some ⟨0, 1⟩, .bound, true)] := by
  refine ⟨reportLaw_of_holds (by decide), reportLaw_of_holds (by decide), reportLaw_of_holds (by decide),
    reportLaw_of_holds (by decide), reportLaw_of_holds (by decide), ?_⟩
  decide
/-- A transfer on link B, no sector under the head, of a READ that host 2 sent on link C. -/
theorem witness_ResetClearsTheLinksWork_transfer :
    let r := { request .read .transferring with issuer := some ⟨9, .h2, .c⟩ }
    let s := offering false none none ((serving r (phase .awaiting) 16).updHost .h2 (fun x => { x with reserved := 1 }))
    s.ReportLaw ∧ (s.link .b).up = true ∧ (s.link .b).exchange = some (.transfer .e0 9 false) ∧
    (s.engine .e0).service.map (fun v => (v.request, v.drive, v.link)) = some (0, .d5, some .b) ∧
    (s.engine .e1).service = none ∧ (s.engine .e0).phase ≠ .streaming ∧ (s.engine .e0).ending = none ∧
    (s.drive .d5).request? 0 = some r ∧ r.cameOn .b = false ∧ (s.link .b).chain = none ∧ r.kind.wholeTrack = false ∧
    r.marked = false ∧ (s.host .h2).isSome = true :=
  ⟨reportLaw_of_holds (by decide), by decide⟩
/-- A TRANSFER-START offered on link B, a LINK-BUSY answer offered under wait g) and under another wait. -/
theorem witness_OfferedFramesAreAccepted :
    let started := fun w => offering w (some (.frame (.transferStart 9 ⟨30, 4, 0⟩ 0))) (some ⟨.readFrame, 40⟩) world
    let busy := fun w tags => world.updLink .a (fun p => { p with
      offered := some (.linkBusy 8), stall := some ⟨w, 1⟩, busyTags := tags })
    let reading := after (.readMap .a (order 1 5)) world
    (answer answering .a).isSome = true ∧ (answering.link .a).toSend = [] ∧ (answering.link .a).busyTags = [] ∧
    (answering.link .a).stall.map (·.wait) = some .answer ∧ answering.quiet = true ∧ (reading.link .a).toSend.length = 3 ∧
    ((after (.answerAccepted .a) reading).link .a).offered.isSome = true ∧
    ((started false).link .b).exchange = some (.transfer .e0 9 false) ∧
    ((started true).link .b).offered = some (.frame (.transferStart 9 ⟨30, 4, 0⟩ 0)) ∧ ((started true).link .b).toSend = [] ∧
    ((busy .linkBusy []).link .a).offered = some (.linkBusy 8) ∧ ((busy .linkBusy []).link .a).toSend = [] ∧
    ((answering.updLink .a (fun p => { p with busyTags := [7] })).link .a).busyTags = [7] ∧
    ((reading.updLink .a (fun p => { p with busyTags := [7] })).link .a).busyTags = [7] ∧
    (((busy .linkBusy []).updLink .a (fun p => { p with
      toSend := [.data 1 0 []], exchange := (answering.link .a).exchange })).link .a).toSend = [.data 1 0 []] ∧
    ((busy .linkBusy [7]).link .a).busyTags = 7 :: [] ∧
    ((busy .image [7]).link .a).busyTags = 7 :: [] ∧ ((busy .image []).link .a).stall.map (·.wait) = some .image ∧
    (world.link .a).offered = none := by decide
theorem witness_ReportsAreTaken :
    (reporting.link .b).exchange = some (.report .h2) ∧
    (reporting.link .b).offered = some (.frame (.report ⟨0, .mode .online⟩)) ∧ (reporting.link .b).busyTags = [] ∧
    (reporting.link .b).stall.map (·.wait) = some .report ∧ (reporting.host .h2).isSome = true ∧ reporting.quiet = true := by
  decide
/-- A queue with room, a full one, and one with notices lost. -/
theorem witness_ReportsAreQueuedOrLost :
    let x := HostState.fresh (entry 6 false)
    let note : Report := ⟨0, .mode .online⟩
    let full := { x with queue := List.replicate 24 note, lost := 255 }
    x.Lawful ∧ full.Lawful ∧ HostState.Lawful { x with reserved := 16 } ∧ x.reserved + x.queue.length < 24 ∧
    24 ≤ full.reserved + full.queue.length ∧ x.reserved + x.completions < 16 ∧ note.isCompletion = false ∧
    0 < { x with reserved := 16 }.reserved :=
  ⟨⟨by decide, by decide, by decide, by decide⟩, ⟨by decide, by decide, by decide, by decide⟩,
    ⟨by decide, by decide, by decide, by decide⟩, by decide, by decide, by decide, by decide, by decide⟩
/-- A READ's last frame taken: in FLUSHING with one sector left, and while streaming with another. -/
theorem witness_ReadDataIsDelivered :
    let s := fun p => offering false (some (.frame (.data 9 0 [1]))) (some ⟨.readFrame, 40⟩)
      (serving { request .read .transferring with count := 1 } (phase p false (.full 0 [1])) 0)
    ((s .flushing).link .b).exchange = some (.transfer .e0 9 false) ∧ ((s .flushing).link .b).busyTags = [] ∧
    ((s .flushing).engine .e0).buf1 = .full 0 [1] ∧ ((s .flushing).engine .e0).buf2 = .empty ∧
    ((s .flushing).engine .e0).service.map (fun v => (v.start.number % 32, v.kind, v.link, v.drive, v.request)) =
      some (0, .read, some .b, .d5, 0) ∧
    ((s .flushing).drive .d5).request? 0 = some { request .read .transferring with count := 1 } ∧
    ((s .flushing).engine .e0).ending = none ∧ ((s .flushing).host .h2).isSome = true ∧
    ((s .streaming).engine .e0).phase ≠ .flushing := by decide
theorem witness_WriteDataIsTaken :
    let s := fun k b1 b2 => offering true none (some ⟨.writeFrame, 0⟩) (serving (request k .transferring) (phase .awaiting false b1 b2) 0)
    ((s .write .empty .empty).link .b).exchange = some (.transfer .e0 9 true) ∧
    ((s .write .empty .empty).engine .e0).service.map (fun v => (v.nextTake, v.start.number / 32, v.logical.number, v.last)) =
      some (0, 364, 364, 1) ∧
    ((s .write (.full 0 []) .empty).engine .e0).buf1 ≠ .empty ∧ ((s .write (.full 0 []) (.full 1 [])).engine .e0).buf2 ≠ .empty ∧
    ((s .update (.full 0 []) .empty).engine .e0).service.map (·.kind) = some .update ∧
    ((s .write .empty .empty).engine .e0).ending = none ∧ ((s .write .empty .empty).engine .e0).cut = false ∧
    (world.link .b).exchange = none := by decide
/-- A stall under each wait of R36. -/
theorem witness_StallsEndWhatTheyBound :
    let transfer := fun p => offering false none (some ⟨.readFrame, 0⟩) (serving (request .read .transferring) (phase p) 16)
    (world.link .a).stall = none ∧ (chained.link .b).stall = some ⟨.chain, 40⟩ ∧ (chained.link .b).chain = some ⟨0, .d1, 1⟩ ∧
    ((transfer .streaming).link .b).stall = some ⟨.readFrame, 0⟩ ∧
    ((transfer .awaiting).engine .e0).service.map (fun v => (v.link, v.drive, v.request)) = some (some .b, .d5, 0) ∧
    ((transfer .awaiting).engine .e0).ending = none ∧
    ((transfer .awaiting).drive .d5).request? 0 = some (request .read .transferring) ∧
    ((transfer .awaiting).host .h2).isSome = true ∧ (awaiting.link .a).stall = some ⟨.image, 40⟩ ∧
    (awaiting.link .a).offered = none ∧ (answering.link .a).stall = some ⟨.answer, 40⟩ ∧
    (reporting.link .b).stall = some ⟨.report, 40⟩ ∧
    ((after (.orderOnBusyLink .a 8) (awaiting.updLink .a (fun p => { p with stall := none }))).link .a).stall =
      some ⟨.linkBusy, 40⟩ := by decide
theorem witness_DrivesAreAdmitted : ((driveIn .absent).drive .d1).state = .absent ∧
    ((driveIn .starting).drive .d1).state = .starting ∧ ((driveIn .offline).drive .d1).state = .offline := by decide
/-- Each event with the state it acts in, and a host request that ends. -/
theorem witness_DriveFailuresEndTheWork :
    let s := seeking (request .read .positioning)
    (s.drive .d5).state = .moving ∧ (s.drive .d5).orientTimer.isSome = true ∧ (world.drive .d1).state = .ready ∧
    ((driveIn .recalibrating).drive .d1).recalDue = false ∧
    (((driveIn .recalibrating).updDrive .d1 (fun dr => { dr with seekTimer := some 0 })).drive .d1).seekTimer.isSome = true ∧
    request .read .positioning ∈ (s.drive .d5).queue ∧ ((s.drive .d5).queue.map (·.id)).Nodup ∧
    (s.engine .e0).ending = none ∧ (s.engine .e1).ending = none ∧ (s.host .h2).isSome = true ∧
    (entry 6 false).receives .e .d5 = true ∧
    (serving (request .read .transferring) (phase .streaming) 16).engineOn .d5 = some .e0 := by decide
theorem witness_SlotsAndPatrolTimersAdvance :
    let on := { world with settings := { world.settings with
      patrolInterval := 1, perDrive := PerDrive.const ⟨.correct, 7, false, true⟩ } }
    let s := on.updDrive .d1 (fun dr => { dr with patrolTimer := .running 0, cursor := ⟨639, 11⟩ })
    ((driveIn .offline).drive .d1).slot = none ∧ ((orienting (request .read .orienting) 127).drive .d5).slot = some 127 ∧
    (world.drive .d1).patrolTimer = .stopped ∧ (s.drive .d1).patrolTimer = .running 0 ∧ s.quiet = true ∧
    (s.drive .d1).state = .ready ∧ (s.drive .d1).queue = [] ∧ s.mode = .online ∧
    (s.settings.perDrive.get .d1).patrol = true ∧ s.settings.patrolInterval ≠ 0 ∧
    (s.drive .d1).map.isCopying (s.drive .d1).cursor = false ∧
    (s.drive .d1).cursor.cyl < (s.drive .d1).type.firstAlternate ∧ s.copy = none ∧
    ({ s with mode := .quiesced } : State).quiet = true := by decide
theorem witness_SeeksArriveAndRecalibrationsEnd :
    let s := seeking (request .read .positioning)
    (s.drive .d5).state = .moving ∧ (s.drive .d5).holder = some (request .read .positioning) ∧ s.quiet = true ∧
    ((seeking (request .read .queued)).drive .d5).holder = none ∧ (world.drive .d1).state ≠ .moving ∧
    ((driveIn .recalibrating).drive .d1).state = .recalibrating ∧ ((driveIn .recalibrating).drive .d1).recalDue = false ∧
    ((driveIn .recalibrating).drive .d1).queue = [] ∧ ((driveIn .recalibrating).drive .d1).slot = none ∧
    ((driveIn .recalibrating).drive .d1).seekTarget = none ∧ (driveIn .recalibrating).quiet = true := by decide
theorem witness_SeekChecksRecalibrate :
    let s := fun n => seeking { request .read .positioning with seekChecks := n }
    ((s 1).drive .d5).state = .moving ∧ ((s 1).drive .d5).seekTimer.isSome = true ∧
    ((s 1).drive .d5).holder.map (·.seekChecks) = some 1 ∧ ((s 2).drive .d5).holder.map (·.seekChecks) = some 2 ∧
    0 < (s 2).nextRequest ∧ (s 2).copy = none ∧ ((s 2).host .h2).isSome = true ∧ (s 1).quiet = true ∧
    ((seeking (request .read .queued)).drive .d5).holder = none := by decide
/-- At the point with link and engine, at the point with neither below and at the miss limit, off the point, a PATROL
and a copy at their points, and drive 3 at its point below drive 5. -/
theorem witness_OrientationPointsGrantOrMiss :
    let s := orienting (request .read .orienting) 14
    let u := (s.updLink .b (fun _ => LinkPort.idle false)).updLink .c (fun _ => LinkPort.idle false)
    let p := { request .patrol .orienting with issuer := none, count := 32 }
    let two := { s with drives := s.drives.set .d3 { s.drive .d5 with queue := [{ request .read .orienting with id := 1 }] } }
    (s.drive .d5).holder = some (request .read .orienting) ∧ (s.drive .d5).armTarget = some ⟨30, 4⟩ ∧ s.copy = none ∧
    (s.drive .d5).pointMet = false ∧
    (s.drive .d5).slot = some ((4 * (((request .read .orienting).next.sector + 4) % 32) + 128 - s.settings.lead % 128) % 128) ∧
    (∀ k ∈ [DriveNo.d0, .d1, .d2, .d3, .d4], s.pointOf k = none) ∧
    s.idleLink .h2 = some .b ∧ (s.link .b).free = true ∧ (s.engine .e0).service = none ∧ s.quiet = true ∧
    u.idleLink .h2 = none ∧ (request .read .orienting).misses + 1 < u.settings.missLimit ∧
    u.settings.missLimit ≤ { request .read .orienting with misses := 2 }.misses + 1 ∧
    ((orienting (request .read .orienting) 15).drive .d5).slot ≠ some 14 ∧
    ((orienting p 14).drive .d5).holder = some p ∧ p.issuer = none ∧
    ((copying 0 (reassigning .orienting)).drive .d5).holder = some (reassigning .orienting) ∧
    (reassigning .orienting).kind.reassigns = true ∧ (copying 0 (reassigning .orienting)).copy.isSome = true ∧
    two.pointOf .d3 = some ({ request .read .orienting with id := 1 }, ⟨30, 4⟩) ∧
    (∀ k ∈ [DriveNo.d0, .d1, .d2, .d4], two.pointOf k = none) ∧ (two.drive .d5).holder = some (request .read .orienting) ∧
    (two.engine .e0).service = none ∧ (two.engine .e1).service = none ∧ (two.idleLink .h2).isSome = true := by decide
/-- A track end with sectors left on a track free and COPYING, one with the range done, and one in a chain. -/
theorem witness_TracksEndAndArmsMove :
    let r := { request .read .transferring with done := 1 }
    let s := fun r => serving r (phase .flushing) 16
    let last := { r with done := 2, chain := some ⟨0, 1⟩ }
    let m := { request .read .bound with id := 1, chain := some ⟨0, 2⟩ }
    let chain := (s last).updDrive .d5 (fun dr => { dr with queue := dr.queue ++ [m] })
    let busy := (s r).updDrive .d5 (fun dr => { dr with map := ((spared (.copying 0)).drive .d5).map })
    (world.drive .d5).state = .ready ∧ (world.drive .d5).pos = some ⟨0, 0⟩ ∧ (world.drive .d5).pos ≠ some ⟨30, 4⟩ ∧
    ((s r).engine .e0).service.map (fun v => (v.drive, v.request, v.link)) = some (.d5, 0, some .b) ∧
    ((s r).drive .d5).request? 0 = some r ∧ ((s r).drive .d5).recalDue = false ∧ ((s r).link .b).busyTags = [] ∧
    ((s r).link .b).offered = none ∧ ((s r).link .b).stall = none ∧ r.done < r.count ∧ (s r).copy = none ∧
    ((s r).drive .d5).map.isCopying r.next.track = false ∧ (busy.drive .d5).map.isCopying r.next.track = true ∧
    (busy.drive .d5).state = .transferring ∧ last.count ≤ last.done ∧ (chain.drive .d5).request? 0 = some last ∧
    (chain.drive .d5).member? 0 2 = some m ∧ m.id ≠ last.id ∧ last.kind.wholeTrack = false ∧
    (chain.host .h2).isSome = true := by decide
/-- R36 a, g: a transfer on link B whose chain is open ends while a LINK-BUSY answer is offered under wait c), under wait g)
that runs, and with no chain. -/
theorem witness_TracksEndAndArmsMove_linkBusy :
    let s := fun chain w => offering true (some (.linkBusy 8)) (some ⟨w, 7⟩)
      (((serving (request .write .transferring) (phase .awaiting) 16).updLink .b (fun p => { p with chain := chain })))
    let port := fun chain w => let p := ((s chain w).release .e0).link .b; (p.exchange, p.stall, p.due)
    ((s none .writeFrame).link .b).offered = some (.linkBusy 8) ∧
    ((s none .writeFrame).engine .e0).service.map (fun v => (v.drive, v.request, v.link)) = some (.d5, 0, some .b) ∧
    ((s none .writeFrame).drive .d5).request? 0 = some (request .write .transferring) ∧
    ((s none .writeFrame).drive .d5).recalDue = false ∧
    port (some ⟨0, .d5, 1⟩) .writeFrame = (none, some ⟨.chain, 40⟩, none) ∧
    port none .writeFrame = (none, some ⟨.linkBusy, 40⟩, none) ∧
    port (some ⟨0, .d5, 1⟩) .linkBusy = (none, some ⟨.linkBusy, 7⟩, some .chain) := by decide
/-- An engine waiting at the start slot of sector 0, in each of the shapes the clauses name. -/
theorem witness_SectorsStart :
    let s := fun k b1 b2 => serving (request k .transferring) (phase .awaiting false b1 b2) 16
    let c : CopyRecord := ⟨0, .reassign, none, .new, .d5, ⟨30, 4⟩, ⟨30, 4⟩, 13, 1, 0, 0, .read, []⟩
    (((s .read .empty .empty).engine .e0).service.map (fun v => (v.current, v.drive, v.track, v.last, v.request))) =
      some (some 0, .d5, ⟨30, 4⟩, 1, 0) ∧
    ((s .read .empty .empty).engine .e0).ending = none ∧
    ((s .read .empty .empty).drive .d5).slot = some (4 * ((0 + 4) % 32)) ∧
    ((s .read .empty .empty).drive .d5).map.isVoid ⟨30, 4⟩ 0 = false ∧ ((spared (.void 0)).drive .d5).map.isVoid ⟨30, 4⟩ 0 = true ∧
    ((s .verify (.full 31 []) .empty).engine .e0).buf1 ≠ .empty ∧ ((s .patrol (.full 31 []) (.full 30 [])).engine .e0).buf2 ≠ .empty ∧
    ((s .write (.full 1 []) (.full 0 [])).engine .e0).buf2 = .full 0 [] ∧
    ((s .update (.full 0 []) (.full 0 [])).engine .e0).buf1 = .full 0 [] ∧
    ((s .update .empty .empty).drive .d5).request? 0 = some (request .update .transferring) ∧
    ({ s .reassign .empty .empty with copy := some c } : State).copy = some c ∧ c.request = 0 ∧ c.phase = .read ∧
    ({ c with phase := .write, places := [(0, [])] } : CopyRecord).places.find? (fun x => x.1 == 0) = some (0, []) ∧
    (s .read .empty .empty).quiet = true ∧ ((s .read .empty .empty).engine .e0).cut = false ∧
    ((s .read (.full 31 []) .empty).engine .e0).buf1 = .full 31 [] ∧
    ((s .patrol .empty .empty).drive .d5).patrolDue = false ∧
    ((s .patrol .empty .empty).drive .d5).request? 0 = some (request .patrol .transferring) ∧
    (request .verify .transferring).done < (request .verify .transferring).count ∧
    ((s .verify .empty .empty).host .h2).isSome = true := by decide
/-- A check field with bits turned over is not the check of the data. -/
theorem check_differs (data : List Byte) (x : BitVec 32) (h : x ≠ 0) :
    Config.checkField data ≠ Config.checkField data ^^^ x := fun e => h (by
  have := congrArg (Config.checkField data ^^^ ·) e
  simpa [← BitVec.xor_assoc] using this.symm)
/-- No burst covers the first and the last bit of the check field, 31 bits apart. -/
theorem no_burst_explains (check : BitVec 32) (h : check = Config.checkField [] ^^^ 0x80000001#32) (b : Burst) :
    explains [] check b = false := by
  have far : burstMask b 512 = 0 ∨ burstMask b 515 = 0 := by
    by_cases hb : b.start < 4104
    · by_cases hs : b.start + 10 < 4120
      · exact .inr (burstMask_eq_zero b 515 fun j hj => by omega)
      · exact .inl (burstMask_eq_zero b 512 fun j hj => by omega)
    · exact .inl (burstMask_eq_zero b 512 fun j hj => by omega)
  rw [Bool.eq_false_iff]
  intro e
  have e := ((explains_iff _ _ _).mp e).2
  simp only [fixData, List.mapIdx_nil, fixCheck, h] at e
  generalize burstMask b 512 = p, burstMask b 513 = q, burstMask b 514 = r, burstMask b 515 = t at far e
  have e : (0x80000001#32) = p ++ q ++ r ++ t := by
    have := congrArg (Config.checkField [] ^^^ ·) e
    simp only [BitVec.xor_self, ← BitVec.xor_assoc, BitVec.zero_xor] at this
    have := congrArg (0x80000001#32 ^^^ ·) this
    simpa [← BitVec.xor_assoc] using this
  rcases far with rfl | rfl
  · have hb : BitVec.getLsbD (w := 8 + 8 + 8 + 8) (0#8 ++ q ++ r ++ t) 31 = false := by
      simp only [BitVec.getLsbD_append]; simp
    exact absurd ((congrArg (fun x : BitVec 32 => x.getLsbD 31) e).trans hb) (by decide)
  · have hb : BitVec.getLsbD (w := 8 + 8 + 8 + 8) (p ++ q ++ r ++ 0#8) 0 = false := by
      simp only [BitVec.getLsbD_append]; simp
    exact absurd ((congrArg (fun x : BitVec 32 => x.getLsbD 0) e).trans hb) (by decide)
/-- A clean reading, one that a burst of one bit in the check field explains, named or not, and one that none does. -/
theorem witness_ReadingsAreJudged :
    let b : Burst := ⟨4096, 1⟩
    let one := Config.checkField [] ^^^ 0x80000000#32
    let two := Config.checkField [] ^^^ 0x80000001#32
    classify [] (Config.checkField []) none = .clean ∧ Config.checkField [] ≠ one ∧ b.wf = true ∧
    Config.checkField (fixData b []) = fixCheck b one ∧ Config.checkField [] ≠ two ∧
    (∀ b : Burst, ¬ (b.wf = true ∧ Config.checkField (fixData b []) = fixCheck b two)) ∧
    classify [] two none = .uncorrectable := by
  have none_fits := no_burst_explains _ rfl
  refine ⟨by simp [classify], check_differs _ _ (by decide), by decide, ?_, check_differs _ _ (by decide), fun b hb => ?_, ?_⟩
  · simp only [fixData, List.mapIdx_nil, fixCheck]
    rw [show burstMask ⟨4096, 1⟩ 512 ++ burstMask ⟨4096, 1⟩ 513 ++ burstMask ⟨4096, 1⟩ 514 ++ burstMask ⟨4096, 1⟩ 515 =
      0x80000000#32 by decide]
    simp
  · exact Bool.false_ne_true ((none_fits b).symm.trans ((explains_iff _ _ _).mpr hb))
  · rw [classify, if_neg (check_differs _ _ (by decide))]
    rcases burstFound_cases [] (Config.checkField [] ^^^ 0x80000001#32) none with
      ⟨_, h, _⟩ | ⟨_, ⟨b, h, _⟩ | ⟨_, h⟩⟩
    · cases h
    · exact absurd ((none_fits b).symm.trans h) Bool.false_ne_true
    · rw [h]
/-- A streaming read of sector 0 of two and of the last sector, in ECC mode OFF and DETECT, for a READ, a VERIFY, a
PATROL, an UPDATE and a copy: delivered, delivered with an outcome after a retry, retried, and unrecovered with and
without a checked sector in the other buffer. -/
theorem witness_SectorReadsEnd :
    let s := fun k last => (serving (request k .transferring) (phase .streaming false (.filling 0)) 20).updEngine .e0
      (fun g => { g with service := g.service.map (fun v => { v with last := last }) })
    let mode := fun ecc retries (s : State) => ({ s with settings := { s.settings with
      perDrive := PerDrive.const ⟨ecc, retries, false, false⟩ } } : State)
    let c : CopyRecord := ⟨0, .reassign, none, .new, .d5, ⟨30, 4⟩, ⟨30, 4⟩, 13, 3, 0, 0, .read, []⟩
    let two := Config.checkField [] ^^^ 0x80000001#32
    (((s .read 1).engine .e0).service.map (fun v => (v.current, v.last, v.link)) = some (some 0, 1, some .b) ∧
    ((s .read 0).engine .e0).service.map (fun v => v.last) = some 0 ∧ ((s .read 1).engine .e0).phase = .streaming ∧
    ((s .read 1).engine .e0).writing = false ∧ ((s .read 1).engine .e0).ending = none ∧
    ((s .read 1).engine .e0).buf1 = .filling 0 ∧ (s .read 1).quiet = true ∧
    ((offering false (some (.frame (.data 9 0 []))) none (s .read 1)).link .b).offered.isSome = true ∧
    ((offering false none none (s .read 1)).link .b).exchange = some (.transfer .e0 9 false) ∧
    ((s .verify 1).engine .e0).service.map (·.kind) = some .verify ∧
    ((s .update 0).engine .e0).service.map (·.kind) = some .update ∧
    ((s .patrol 0).drive .d5).request? 0 = some (request .patrol .transferring) ∧ ((s .patrol 0).drive .d5).patrolDue = false ∧
    ({ s .reassign 1 with copy := some c } : State).copy = some c ∧ c.request = 0 ∧ c.phase = .read ∧
    SectorSet.above (c.toRead &&& ~~~(SectorSet.add c.captured 0 ||| c.unrecovered)) 0 = some 1 ∧
    SectorSet.above ((1 : SectorSet) &&& ~~~(SectorSet.add 0 0 ||| 0)) 0 = none ∧
    (((s .read 1).updEngine .e0 (fun g => { g with buf1 := .full 31 [], buf2 := .filling 0 })).engine .e0).buf2 = .filling 0 ∧
    ((s .verify 1).host .h2).isSome = true) ∧
    ((mode .off 7 (s .read 1)).settings.perDrive.get .d5).ecc = .off ∧
    (∀ data, verdict .off 0 7 data (classify data 0 none) = .delivered data none) ∧
    verdict .detect 1 7 [] (classify [] (Config.checkField []) none) = .delivered [] (some .retried) ∧
    verdict .detect 0 7 [] (classify [] two none) = .retried ∧ verdict .detect 7 7 [] (classify [] two none) = .unrecovered := by
  refine ⟨by decide, rfl, fun _ => rfl, ?_, ?_, ?_⟩
  · rw [witness_ReadingsAreJudged.1]; rfl
  · rw [witness_ReadingsAreJudged.2.2.2.2.2.2]; rfl
  · rw [witness_ReadingsAreJudged.2.2.2.2.2.2]; rfl
/-- A sector read to its end under each event, for a READ with and without another checked sector and for a VERIFY. -/
theorem witness_SectorReadsEnd_endings :
    let s := fun k ending b2 => (serving (request k .transferring)
      { phase .streaming false (.filling 0) b2 with ending := some ending } 20)
    (∀ x ∈ [Ending.event .linkLost, .event .linkReset, .event .linkStall, .offline, .stringReset],
      ((s .read x .empty).engine .e0).ending = some x ∧ ∀ st, x ≠ .failing st) ∧
    ((s .read .offline .empty).engine .e0).service.map (fun v => (v.current, v.kind, v.link)) =
      some (some 0, .read, some .b) ∧
    ((s .read .offline .empty).engine .e0).phase = .streaming ∧ ((s .read .offline .empty).engine .e0).writing = false ∧
    ((s .read .offline .empty).engine .e0).buf1 = .filling 0 ∧ ((s .read .offline .empty).engine .e0).cut = false ∧
    ((s .read .offline (.full 1 [])).engine .e0).buf2 = .full 1 [] ∧
    ((s .verify .offline .empty).engine .e0).service.map (·.kind) = some .verify ∧
    ((offering false none none (s .read .offline .empty)).link .b).exchange = some (.transfer .e0 9 false) ∧
    ((offering false none none (s .read .offline .empty)).link .b).toSend = [] ∧
    verdict .off 0 7 [] .clean = .delivered [] none :=
  ⟨fun x hx => ⟨by
      simp only [List.mem_cons, List.not_mem_nil, or_false] at hx
      rcases hx with rfl | rfl | rfl | rfl | rfl <;> rfl, fun st h => by subst h; simp at hx⟩, by decide⟩
/-- A write of sector 0 that completes: a WRITE with a frame to come, an UPDATE, a copy with sector 1 left. -/
theorem witness_SectorWritesEnd :
    let s := fun k => serving (request k .transferring) (phase .streaming true (.full 0 [1])) 20
    let c : CopyRecord := ⟨0, .reassign, none, .new, .d5, ⟨30, 4⟩, ⟨30, 4⟩, 13, 3, 3, 0, .write, []⟩
    ((s .write).engine .e0).service.map (fun v => (v.current, v.last, v.link, v.start.number / 32, v.logical.number)) =
      some (some 0, 1, some .b, 364, 364) ∧
    ((s .write).engine .e0).phase = .streaming ∧ ((s .write).engine .e0).writing = true ∧
    ((s .write).engine .e0).ending = none ∧ ((s .write).engine .e0).buf1 = .full 0 [1] ∧
    ((s .write).engine .e0).buf2 = .empty ∧ (s .write).quiet = true ∧
    ((s .update).drive .d5).request? 0 = some (request .update .transferring) ∧ ((s .update).host .h2).isSome = true ∧
    c.request = 0 ∧ c.phase = .write ∧
    ((spared (.copying 0)).drive .d5).map.entry? ⟨30, 4⟩ = some ⟨⟨30, 4⟩, 13, .copying 0, [], .host, 0⟩ ∧
    SectorSet.above (c.captured &&& ~~~(SectorSet.add 0 0)) 0 = some 1 ∧
    SectorSet.above ((1 : SectorSet) &&& ~~~(SectorSet.add 0 0)) 0 = none ∧ (s .write).copy = none ∧
    (((s .write).updEngine .e0 (fun g => { g with service := g.service.map (fun v => { v with last := 0 }) })).engine
      .e0).service.map (·.last) = some 0 ∧
    ((((copying 0 (reassigning .transferring)).updEngine .e0 (fun _ => (s .reassign).engine .e0)).release .e0).drive
      .d5).request? 0 = some (reassigning .transferring) := by decide
/-- R88: a copy's sector passes from its place in the track buffer through buffer 1 onto the drive. -/
theorem test_copy_passes_through_buffer :
    let s := { (serving (request .reassign .transferring) (phase .awaiting) 16).updDrive .d5 (fun dr =>
        { dr with map := ((spared (.copying 0)).drive .d5).map }) with
      copy := some ⟨0, .reassign, none, .new, .d5, ⟨30, 4⟩, ⟨30, 4⟩, 13, 3, 3, 0, .write, [(0, [7]), (1, [8])]⟩ }
    let t := after (.sectorStart .e0) s
    let u := after (.sectorWriteEnd .e0) t
    (t.engine .e0).buf1 = .full 0 [7] ∧ (t.engine .e0).writing = true ∧
    (u.engine .e0).buf1 = .empty ∧ (u.engine .e0).service.map (·.current) = some (some 1) := by decide
/-- A written sector that ends under an event, of a WRITE, an UPDATE and a copy. -/
theorem witness_SectorWritesEnd_endings :
    let s := fun k => serving (request k .transferring)
      { phase .streaming true (.full 0 [1]) with ending := some (.event .linkLost) } 20
    let c := (s .reassign).updDrive .d5 (fun dr => { dr with map := ((spared (.copying 0)).drive .d5).map })
    (∀ k ∈ [ReqKind.write, .update, .reassign], ((s k).engine .e0).service.map (fun v => (v.current, v.kind)) =
      some (some 0, k) ∧ ((s k).engine .e0).phase = .streaming ∧ ((s k).engine .e0).writing = true ∧
      ((s k).engine .e0).ending = some (.event .linkLost)) ∧ ReqKind.reassign.reassigns = true ∧
    (c.drive .d5).map.entry? ⟨30, 4⟩ = some ⟨⟨30, 4⟩, 13, .copying 0, [], .host, 0⟩ := by decide
/-- A table with the entry, a table with room, a full table with a victim, a full table of SPARE-PENDING entries, and an
entry at the threshold of a drive with auto-spare on, its queue with room and full. -/
theorem witness_OutcomesReachTheHistory :
    let old := fun n : Nat => ({ HistEntry.fresh .d0 ⟨n, 0⟩ 0 with corrected := 1 } : HistEntry)
    let table := fun pend => (List.range 64).map (fun n => ({ old n with sparePending := pend && decide (n ≠ 9) } : HistEntry))
    let on := { world with
      settings := { world.settings with perDrive := PerDrive.const ⟨.correct, 7, true, false⟩ }
      history := [{ HistEntry.fresh .d1 ⟨10, 0⟩ 0 with corrected := 7 }] }
    let u := on.recordOutcome .d1 ⟨10, 0⟩ 3 .corrected
    (∃ e ∈ on.history, (e.drive == .d1 && e.track == ⟨10, 0⟩) = true) ∧
    (∀ e ∈ on.history, (e.drive == .d2 && e.track == ⟨10, 0⟩) = false) ∧ on.history.length < 64 ∧
    64 ≤ (table true).length ∧ old 9 ∈ table true ∧ (old 9).sparePending = false ∧
    (∀ e ∈ table true, e.sparePending = false → (e.drive, e.track) = (.d0, ⟨9, 0⟩)) ∧
    (∀ e ∈ (table true).map (fun e => { e with sparePending := true }), e.sparePending = true) ∧
    u.history.find? (fun e => e.drive == .d1 && e.track == ⟨10, 0⟩) = u.history.head? ∧
    u.history.map (fun e => (e.corrected + e.retried, e.sparePending)) = [(8, false)] ∧
    on.settings.spareThreshold = 8 ∧ reverse (on.drive .d1).type (on.drive .d1).map ⟨10, 0⟩ = some ⟨10, 0⟩ ∧
    on.translate .d1 ⟨10, 0⟩ = ⟨10, 0⟩ ∧ (on.settings.perDrive.get .d1).autoSpare = true ∧ on.mode = .online ∧
    (on.drive .d1).queue.length < 16 ∧ 16 ≤ (fullQueue.drive .d1).queue.length := by decide
theorem witness_TranslationIsReversed :
    let m := ((spared .active).drive .d5).map
    m.Lawful ∧ (∀ x ∈ m.entries, x.alt < 96) ∧ m.entry? ⟨30, 5⟩ = none ∧ m.altState 95 ≠ .assigned :=
  ⟨⟨by decide, by decide, by decide⟩, by decide, by decide, by decide⟩
theorem witness_EstimatesAreBounded : (profile 639).ordered .d80 = true ∧ (profile 639).headSwitch ≤ 15 ∧
    world.settings.lead ≤ 7 ∧ world.settings.aging * 0 < estimate (profile 639) world.settings ⟨0, 0⟩ none ⟨0, 0⟩ 0 ∧
    estimate (profile 639) world.settings ⟨0, 0⟩ none ⟨0, 0⟩ 0 ≤ world.settings.aging * 8 := by decide
/-- Distance 30 lies between the points 10 and 50; and requests on a D80 with a profile: a READ, a REASSIGN before its copy
and one in each phase of it. -/
theorem witness_EstimatesAreBounded_score :
    let r := reassigning .queued
    let c : CopyRecord := ⟨0, .reassign, r.issuer, .new, .d5, ⟨30, 4⟩, ⟨30, 4⟩, 13, 7, 1, 0, .read, []⟩
    (profile 700).points = [(1, 4)] ++ (10, 8) :: (50, 16) :: (profile 700).points.drop 3 ∧
    (profile 700).points.head? = some (1, 4) ∧ (profile 700).ordered .d80 = true ∧
    (world.drive .d5).cap = some ⟨.d80, 7⟩ ∧ world.profile80 = some (profile 700) ∧
    (world.drive .d5).pos = some ⟨0, 0⟩ ∧ world.copy = none ∧ (request .read .queued).kind = .read ∧
    r.kind = .reassign ∧ r.start.sector = 0 ∧ c.request = r.id ∧ c.drive = .d5 ∧
    SectorSet.lowest (c.toRead &&& ~~~(c.captured ||| c.unrecovered)) = some 1 ∧
    ((spared (.copying 0)).drive .d5).map.entry? c.logical = some ⟨⟨30, 4⟩, 13, .copying 0, [], .host, 0⟩ ∧
    SectorSet.lowest (c.captured &&& ~~~(EntryState.copying 0).valid) = some 0 := by decide
/-- A due drive READY with an empty queue, its patrol setting on; a due drive that is STARTING, and one that is not due. -/
theorem witness_ValidBundlesAreInstalled_due :
    let on := { Settings.default with patrolInterval := 1, perDrive := PerDrive.const ⟨.correct, 7, false, true⟩ }
    let g : Staging := ⟨.a, ⟨.settings, 1, .settings on⟩ :: bundle.segments.drop 1⟩
    let due := fun s d => State.updDrive s d (fun dr => { dr with patrolDue := true })
    let s := { due ((due world .d0).updDrive .d1 (fun dr => { dr with state := .starting })) .d1 with
      mode := .loading, staging := some g }
    s.accepts .a .endLoad (order 1 0) = true ∧ s.calm = true ∧ g.owner = .a ∧ g.invalid = none ∧
    (g.settings?.map (fun st => (st.patrolInterval, (st.perDrive.get .d0).patrol))) = some (1, true) ∧
    (s.drive .d0).patrolDue = true ∧ (s.drive .d0).queue = [] ∧ (s.drive .d0).state = .ready ∧ g.map? .d0 = none ∧
    (s.drive .d0).cap = some ⟨.d80, 7⟩ ∧ (s.drive .d1).patrolDue = true ∧ (s.drive .d1).state = .starting ∧
    (s.drive .d2).patrolDue = false := by decide
/-- A request of drive 5 with the chain members behind it at positions 2 and 8. -/
def inChain (s : State) (kind : ReqKind) : State :=
  { (s.updDrive .d5 (fun dr => { dr with queue := dr.queue ++
      [{ request .read .bound with id := 2, issuer := some ⟨12, .h2, .b⟩, chain := some ⟨0, 8⟩ },
        { request kind .bound with id := 1, issuer := some ⟨11, .h2, .b⟩, chain := some ⟨0, 2⟩ }] })).updHost .h2 (fun x =>
      { x with reserved := 3 }) with nextRequest := 3 }
/-- What every clause on a cancelled chain asks: the requests' law, the member that ends and the two behind it. -/
def chainHolds (s : State) (r : Request) : Bool :=
  reportLawHolds s && (s.drive .d5).queue.contains r && decide (r.chain = some ⟨0, 1⟩ ∧ r.marked = false) &&
  decide (((s.drive .d5).laterMembers ⟨0, 1⟩).map (fun m => (m.id, m.issuer.isSome, m.marked)) =
    [(1, true, false), (2, true, false)])
/-- A READ that fails and one that a link event ends, at the sector boundary. -/
theorem witness_TracksEndAndArmsMove_chain :
    let r := { request .read .transferring with chain := some ⟨0, 1⟩ }
    let s := fun ending => inChain (serving r { phase .awaiting with ending := some ending }  16) .write
    (∀ x ∈ [Ending.failing .dataCheck, .event .linkLost], chainHolds (s x) r = true ∧
      ((s x).engine .e0).ending = some x ∧ ((s x).drive .d5).request? 0 = some r ∧
      ((s x).engine .e0).service.map (fun v => (v.drive, v.request)) = some (.d5, 0)) ∧
    r.kind.wholeTrack = false ∧ r.issuer = some ⟨9, .h2, .b⟩ ∧ Status.dataCheck ≠ .complete ∧
    Status.linkLost ≠ .completeRecovered := by decide
/-- R35 b, R102: the void sector ends a VERIFY at its second sector, and its chain after it, in chain order. -/
theorem test_chain_is_cancelled :
    let r := { request .verify .transferring with done := 1, chain := some ⟨0, 1⟩ }
    let s := (inChain (serving r (phase .awaiting) 20) .write).updDrive .d5 (fun dr => { dr with
      map := ((spared (.void 0)).drive .d5).map })
    let s := s.updEngine .e0 (fun g => { g with service := g.service.map (fun v => { v with current := some 1 }) })
    let t := after (.sectorStart .e0) s
    (t.host .h2).map (·.queue.filterMap (fun q => match q.record with
      | .completion c => some (c.tag, c.status, c.done, c.addr)
      | _ => none)) = some [(9, .voidSector, 1, some ⟨30, 4, 1⟩), (11, .chainCancelled, 0, none), (12, .chainCancelled, 0, none)] ∧
    (t.drive .d5).queue = [] := by decide
/-- A REASSIGN in a chain whose copy ends, and one at its choice with no alternate FREE or with nothing to fill. -/
theorem witness_CopiesEnd_chain :
    let r := fun st form => { reassigning st with form := form, chain := some ⟨0, 1⟩ }
    let s := inChain (copying 5 (r .transferring .new)) .write
    let out := fun form => inChain ((seeking (r .queued form)).updDrive .d5 (fun dr =>
      { dr with map := { dr.map with pool := dr.map.pool.map (fun _ => .retired) } })) .write
    chainHolds s (r .transferring .new) = true ∧ (s.drive .d5).map.entry? ⟨30, 4⟩ = some ⟨⟨30, 4⟩, 13, .copying 5, [], .host, 0⟩ ∧
    s.copy.map (fun c => (c.drive, c.logical, c.request)) = some (.d5, ⟨30, 4⟩, 0) ∧
    ((s.drive .d5).queue.map (·.id)).Nodup ∧ ((s.drive .d5).map.entries.map (·.primary)).Nodup ∧
    (∀ x, s.host .h2 = some x → x.reserved + x.queue.length + 2 + 3 ≤ 24) ∧
    chainHolds (out .new) (r .queued .new) = true ∧ chainHolds (out .fill) (r .queued .fill) = true ∧
    ((out .new).drive .d5).map.lowestFree = none ∧ ((out .fill).drive .d5).map.entry? ⟨30, 4⟩ = none := by
  refine ⟨by decide, by decide, by decide, by decide, by decide, fun x hx => by cases hx; decide, ?_⟩
  decide
/-- The third seek check of a chain's first member. -/
theorem witness_SeekChecksRecalibrate_chain :
    let r := { request .read .positioning with seekChecks := 2, chain := some ⟨0, 1⟩ }
    let s := inChain (seeking r) .write
    chainHolds s r = true ∧ (s.drive .d5).state = .moving ∧ (s.drive .d5).holder = some r ∧ 3 ≤ r.seekChecks + 1 ∧
    r.id < s.nextRequest ∧ s.copy = none ∧ r.kind.wholeTrack = false := by decide
/-- Link B goes down, and link C keeps its host reachable; the host holds drive 1. -/
theorem witness_LinkSignalsAreFollowed_other :
    let s := claimed (some .h2) []
    (s.drive .d1).claim.holder = some .h2 ∧ s.owner .b = some .h2 ∧ (entry 6 false).owns .c = true ∧
    (s.host .h2).map (·.entry) = some (entry 6 false) ∧ (s.link .b).up = true ∧ (s.link .c).up = true := by decide
/-- In FLUSHING: another checked sector standing, and the last one taken with an ending recorded, with a sector of the order
left and with none. -/
theorem witness_ReadDataIsDelivered_endings :
    let r := fun n : Nat => { request .read .transferring with count := n }
    let s := fun n b2 ending => offering false (some (.frame (.data 9 0 [1]))) (some ⟨.readFrame, 40⟩)
      (serving (r n) { phase .flushing false (.full 0 [1]) b2 with ending := ending } 0)
    ((s 2 (.full 1 []) none).engine .e0).buf2 = .full 1 [] ∧
    (∀ x ∈ [Ending.failing .dataCheck, .failing .voidSector, .offline], ((s 2 .empty (some x)).engine .e0).ending = some x) ∧
    ((s 2 .empty none).engine .e0).ending = none ∧ ((s 2 .empty none).engine .e0).phase = .flushing ∧
    ((s 2 .empty none).engine .e0).buf1 = .full 0 [1] ∧ ((s 2 .empty none).engine .e0).buf2 = .empty ∧
    ((s 2 .empty (some .offline)).drive .d5).request? 0 = some (r 2) ∧ (r 2).done + 1 < (r 2).count ∧
    ((s 1 .empty (some .offline)).drive .d5).request? 0 = some (r 1) ∧ (r 1).count ≤ (r 1).done + 1 ∧
    ((s 1 .empty (some .offline)).host .h2).isSome = true := by decide
/-- Requests of two hosts on a drive whose engine finishes one under DRIVE OFFLINE, none marked; and the carrier of a copy. -/
theorem witness_DriveFailuresEndTheWork_completions :
    let s := (serving (request .read .transferring) { phase .streaming with ending := some .offline } 16).updDrive .d5
      (fun dr => { dr with queue := dr.queue ++ [{ request .write .queued with id := 1, issuer := some ⟨4, .h3, .d⟩ }] })
    (∀ r ∈ (s.drive .d5).queue, r.marked = false) ∧ s.engineOn .d5 = some .e0 ∧ (s.engine .e0).ending = some .offline ∧
    (s.host .h2).isSome = true ∧ (s.host .h3).isSome = true ∧ (s.drive .d5).queue.map (·.done) = [0, 0] ∧
    (∀ r ∈ ((copying 5 (reassigning .orienting)).drive .d5).queue, r.marked = false) ∧
    (copying 5 (reassigning .orienting)).copy.map (fun c => (c.drive, c.request)) = some (.d5, 0) := by decide
/-- A cursor at the first track beyond the data area. -/
theorem witness_SlotsAndPatrolTimersAdvance_cursor :
    let on := { world with settings := { world.settings with
      patrolInterval := 1, perDrive := PerDrive.const ⟨.correct, 7, false, true⟩ } }
    let s := on.updDrive .d1 (fun dr => { dr with patrolTimer := .running 0, cursor := ⟨640, 0⟩ })
    ¬ (s.drive .d1).cursor.cyl < (s.drive .d1).type.firstAlternate ∧ (s.drive .d1).patrolTimer = .running 0 ∧
    s.quiet = true ∧ (s.drive .d1).state = .ready ∧ (s.drive .d1).queue = [] ∧ s.mode = .online ∧
    (s.settings.perDrive.get .d1).patrol = true ∧ s.settings.patrolInterval ≠ 0 ∧
    (s.drive .d1).map.isCopying ⟨0, 0⟩ = false ∧ s.copy = none := by decide
/-- A drive with no arm holder, one with no arm target, and drives 3 and 5 at their points with engine E1 alone free, the
holder of drive 5 below the miss limit and at it. -/
theorem witness_OrientationPointsGrantOrMiss_one :
    let s := fun n => orienting { request .read .orienting with misses := n } 14
    let low := fun n => { (s n).drive .d5 with queue := [{ request .read .orienting with id := 1 }] }
    let two := fun n => ({ s n with drives := (s n).drives.set .d3 (low n) } : State).updEngine .e0 (fun _ =>
      (serving { request .read .transferring with id := 2 } (phase .awaiting) 0).engine .e0)
    (world.drive .d5).holder = none ∧ (((s 0).updDrive .d5 (fun dr => { dr with armTarget := none })).drive .d5).armTarget = none ∧
    ((s 0).updDrive .d5 (fun dr => { dr with armTarget := none })).drive .d5 ≠ world.drive .d5 ∧
    (∀ n ∈ [1, 2], (two n).pointOf .d3 = some ({ request .read .orienting with id := 1 }, ⟨30, 4⟩) ∧
      (two n).pointOf .d5 = some ({ request .read .orienting with misses := n }, ⟨30, 4⟩) ∧
      (∀ k ∈ [DriveNo.d0, .d1, .d2, .d4], (two n).pointOf k = none) ∧ ((two n).engine .e1).service = none ∧
      ((two n).engine .e0).service.isSome = true ∧ ((two n).idleLink .h2).isSome = true) ∧
    1 + 1 < world.settings.missLimit ∧ world.settings.missLimit ≤ 2 + 1 := by decide

end Sys2Proof.Tests
end

/-! CLAIM, from its drive check on (R29, R51): what the checks leave to it, and what it does in each claim state. -/
namespace Sys2Proof.Machine

theorem exec_claim (l : Link) (f : OrderFrame) (s : State) :
    exec (.claim l f) s = .next (s.takeOrder l .claim f (fun s => s.byOwner l (fun h => s.claimBy l f h))) := rfl

/-! ### The checks -/

/-- Check 4 passes every order on an assigned link. -/
theorem State.check4_of_owner {s : State} {l : Link} {h : HostNo} (ho : s.owner l = some h) (c : OrderCode) :
    s.check4 l c = none := by
  simp [State.check4, ho]

/-- Check 5 passes every order that is not state-changing: it needs no authority (R46). -/
theorem State.check5_of_not_stateChanging {c : OrderCode} {f : OrderFrame} (hc : stateChanging c f = false) (s : State)
    (l : Link) : s.check5 l c f = none := by
  simp [State.check5, hc]

/-- A CLAIM that passes the first three checks meets the drive check alone (R29, R51). -/
theorem State.acceptance_claim {s : State} {l : Link} {f : OrderFrame} {h : HostNo} (ho : s.owner l = some h)
    (h1 : s.check1 l .claim f = none) (h2 : s.check2 l f = none) (h3 : s.check3 .claim = none) :
    s.acceptance l .claim f = s.check6 .claim f := by
  have h4 : s.check4 l .claim = none := State.check4_of_owner ho .claim
  have h5 : s.check5 l .claim f = none := State.check5_of_not_stateChanging rfl s l
  simp [State.acceptance, OrderCode.queued, h1, h2, h3, h4, h5]

/-- The drive check of CLAIM (R29 check 6): it passes exactly where the drive is usable. -/
theorem State.check6_claim (s : State) (f : OrderFrame) :
    s.check6 .claim f = if (s.drive (orderDrive f)).usable = false then
      some (.noDrive, oneByte (s.drive (orderDrive f)).state.condition.code) else none := by
  simp [State.check6]

/-! ### The order carried out -/

theorem claimImage_of_holder (h : HostNo) : claimImage (some h) none = [BitVec.ofNat 8 (HostNo.code h), 255] := rfl

/-- An order that only its owner can carry out, in its exchange. -/
theorem State.byOwner_openOrder {s : State} {l : Link} {h : HostNo} (ho : s.owner l = some h) (tag : Byte) (holds : Bool)
    (act : HostNo → State) : (s.openOrder l tag holds).byOwner l act = act h := by
  simp [State.byOwner, ho]

/-- CLAIM on a free drive (R51 a): the host leaves the waiting list and becomes holder; the orphan timer stays. -/
theorem State.claimBy_of_free {s : State} {l : Link} {f : OrderFrame} {h : HostNo} (hf : (s.link l).free = true)
    (ho : s.owner l = some h) (hc : (s.drive (orderDrive f)).claim.holder = none) :
    (s.openOrder l f.tag true).claimBy l f h =
      (s.updDrive (orderDrive f) (fun dr => { dr with claim :=
          ⟨some h, (s.drive (orderDrive f)).claim.waiting.filter (· != h), (s.drive (orderDrive f)).claim.orphan⟩ })).answered
        l f.tag (some h) true (completeAnswer f.tag [BitVec.ofNat 8 (HostNo.code h), 255]) := by
  have htake : s.updClaim (orderDrive f) (Claim.take h) = s.updDrive (orderDrive f) (fun dr => { dr with claim :=
      ⟨some h, (s.drive (orderDrive f)).claim.waiting.filter (· != h), (s.drive (orderDrive f)).claim.orphan⟩ }) :=
    State.updDrive_congr rfl
  have hfree : ((s.updClaim (orderDrive f) (Claim.take h)).link l).free = true := hf
  calc (s.openOrder l f.tag true).claimBy l f h
      = ((s.updClaim (orderDrive f) (Claim.take h)).openOrder l f.tag true).complete l f.tag (claimImage (some h) none) := by
        simp only [State.claimBy, State.openOrder_drive, hc, State.updClaim, State.openOrder_updDrive]
    _ = (s.updClaim (orderDrive f) (Claim.take h)).answered l f.tag (some h) true
          (completeAnswer f.tag (claimImage (some h) none)) := by
        rw [State.openOrder_complete hfree, State.updClaim, State.updDrive_owner, ho]
    _ = _ := by rw [htake, claimImage_of_holder]

/-- CLAIM on a held drive (R51 b, c): the holder is answered COMPLETE, another host is refused; the claim stays. -/
theorem State.claimBy_of_held {s : State} {l : Link} {f : OrderFrame} {h g : HostNo} (hf : (s.link l).free = true)
    (ho : s.owner l = some h) (hc : (s.drive (orderDrive f)).claim.holder = some g) :
    (s.openOrder l f.tag true).claimBy l f h =
      if g = h then s.answered l f.tag (some h) true (completeAnswer f.tag [BitVec.ofNat 8 (HostNo.code h), 255])
      else s.answered l f.tag (some h) true (refusalAnswer f.tag .claimed [BitVec.ofNat 8 (HostNo.code g), 0, 0, 0]) := by
  simp only [State.claimBy, State.openOrder_drive, hc]
  split
  · rw [State.openOrder_complete hf, ho, claimImage_of_holder]
  · rw [State.openOrder_refuse hf, ho, oneByte]

/-! ### The command -/

/-- CLAIM for a drive that is not usable is refused with the drive's condition (R29 check 6). -/
theorem exec_claim_of_unusable {s : State} {l : Link} {f : OrderFrame} {h : HostNo} (hf : (s.link l).free = true)
    (ho : s.owner l = some h) (ha : s.acceptance l .claim f = s.check6 .claim f)
    (hu : (s.drive (orderDrive f)).usable = false) :
    exec (.claim l f) s = .next (s.answered l f.tag (some h) false (refusalAnswer f.tag .noDrive
      [BitVec.ofNat 8 (s.drive (orderDrive f)).state.condition.code, 0, 0, 0])).settle := by
  rw [State.check6_claim, if_pos hu] at ha
  have hrefused : ∀ x, s.refuseOrder l .claim f x = (s.openOrder l f.tag false).refuse l f.tag x.1 x.2 := fun _ => rfl
  rw [exec_claim, State.takeOrder_refused hf ha, hrefused, State.openOrder_refuse hf, ho, oneByte]

/-- CLAIM for a usable drive is carried out in its exchange by the link's owner. -/
theorem exec_claim_of_usable {s : State} {l : Link} {f : OrderFrame} {h : HostNo} (hf : (s.link l).free = true)
    (ho : s.owner l = some h) (ha : s.acceptance l .claim f = s.check6 .claim f)
    (hu : (s.drive (orderDrive f)).usable = true) :
    exec (.claim l f) s = .next ((s.openOrder l f.tag true).claimBy l f h).settle := by
  have hacc : s.accepts l .claim f = true :=
    (State.accepts_iff s l .claim f).mpr ⟨hf, by rw [ha, State.check6_claim, if_neg (by simp [hu])]⟩
  rw [exec_claim, State.takeOrder_accepted hacc, State.byOwner_openOrder ho]
  rfl

/-- Settles O16: the drive check decides whether CLAIM is carried out, and the holder of the drive what it does. -/
theorem claimIsCarriedOut : Obligations.ClaimIsCarriedOut := by
  unfold Obligations.ClaimIsCarriedOut
  intro l f h s hf ho h1 h2 h3
  have ha : s.acceptance l .claim f = s.check6 .claim f := State.acceptance_claim ho h1 h2 h3
  dsimp only
  cases hu : (s.drive (orderDrive f)).usable with
  | false =>
    rw [if_pos rfl]
    exact exec_settles (exec_claim_of_unusable hf ho ha hu) State.quiet_answered_same
  | true =>
    rw [if_neg (by simp)]
    have hexec := exec_claim_of_usable hf ho ha hu
    cases hc : (s.drive (orderDrive f)).claim.holder with
    | none =>
      rw [State.claimBy_of_free hf ho hc] at hexec
      exact exec_settles hexec fun hq => State.quiet_answered_updDrive hq ⟨rfl, rfl, rfl⟩
    | some g =>
      rw [State.claimBy_of_held hf ho hc] at hexec
      dsimp only
      refine exec_settles hexec fun hq => ?_
      split
      · exact State.quiet_answered_same hq
      · exact State.quiet_answered_same hq

end Sys2Proof.Machine

/-! The seek profile and the estimate (R72 to R76): where the seek time lies among the points of a profile, what the rounding
can change, and what the score of a request on its drive is computed from. -/
namespace Sys2Proof.Machine

/-! ### The points of a profile -/

/-- A point and a later one of a profile: a greater distance and no smaller time (R74). -/
def Rises (a b : Nat × Nat) : Prop := a.1 < b.1 ∧ a.2 ≤ b.2

/-- What the constraints of R74 give the seek time: at least one point, the points rising, and no time above 1023. -/
structure Profile.Rising (p : Profile) : Prop where
  nonempty : p.points ≠ []
  rises : p.points.Pairwise Rises
  le_max : ∀ q ∈ p.points, q.2 ≤ 1023

theorem isChain_of_all_zip_tail {α : Type} {R : α → α → Prop} [DecidableRel R] {l : List α}
    (h : (l.zip l.tail).all (fun x => decide (R x.1 x.2)) = true) : l.IsChain R := by
  induction l with
  | nil => exact .nil
  | cons a l ih =>
    cases l with
    | nil => exact .singleton a
    | cons b l =>
      obtain ⟨hab, hl⟩ : R a b ∧ _ := by simpa using h
      exact List.isChain_cons_cons.mpr ⟨hab, ih (by simpa using hl)⟩

theorem le_getLastD_of_pairwise {l : List Nat} (h : l.Pairwise (· ≤ ·)) {x : Nat} (hx : x ∈ l) : x ≤ l.getLastD 0 := by
  have hne : l ≠ [] := List.ne_nil_of_mem hx
  rw [List.getLastD_eq_getLast?, List.getLast?_eq_some_getLast hne]
  exact h.rel_getLast hx

theorem Profile.rising_of_ordered {p : Profile} {ty : DriveType} (h : p.ordered ty = true) : p.Rising := by
  simp only [Profile.ordered, Bool.and_eq_true, decide_eq_true_eq] at h
  obtain ⟨⟨⟨⟨⟨⟨hlen, -⟩, hds⟩, -⟩, -⟩, hts⟩, hlast⟩ := h
  have hD : (p.points.map (·.1)).Pairwise (· < ·) := List.isChain_iff_pairwise.mp (isChain_of_all_zip_tail hds)
  have hT : (p.points.map (·.2)).Pairwise (· ≤ ·) := List.isChain_iff_pairwise.mp (isChain_of_all_zip_tail hts)
  exact {
    nonempty := fun hnil => by simp [hnil] at hlen
    rises := (List.pairwise_map.mp hD).and (List.pairwise_map.mp hT)
    le_max := fun q hq => (le_getLastD_of_pairwise hT (List.mem_map_of_mem hq)).trans hlast }

/-! ### One band -/

theorem interpolate_at_end (r : Rounding) {lo hi : Nat × Nat} (h : Rises lo hi) : interpolate r lo hi hi.1 = hi.2 := by
  obtain ⟨hd, ht⟩ := h
  have hw : 0 < hi.1 - lo.1 := by omega
  have hround : (2 * ((hi.2 - lo.2) * (hi.1 - lo.1)) + (hi.1 - lo.1)) / (2 * (hi.1 - lo.1)) = hi.2 - lo.2 := by
    rw [show 2 * ((hi.2 - lo.2) * (hi.1 - lo.1)) = 2 * (hi.1 - lo.1) * (hi.2 - lo.2) by ring,
      Nat.mul_add_div (by omega), Nat.div_eq_of_lt (by omega), Nat.add_zero]
  cases r with
  | chop => simp only [interpolate, Nat.mul_div_cancel _ hw]; omega
  | round => simp only [interpolate, hround]; omega

theorem interpolate_mono (r : Rounding) (lo hi : Nat × Nat) {m n : Nat} (h : m ≤ n) :
    interpolate r lo hi m ≤ interpolate r lo hi n := by
  cases r <;> simp only [interpolate] <;> gcongr

/-- Rounding to the nearest slot gives the slot below or one more (R74 c). -/
theorem interpolate_rounding (lo hi : Nat × Nat) (n : Nat) :
    interpolate .chop lo hi n ≤ interpolate .round lo hi n ∧
      interpolate .round lo hi n ≤ interpolate .chop lo hi n + 1 := by
  simp only [interpolate]
  generalize (hi.2 - lo.2) * (n - lo.1) = num, hi.1 - lo.1 = width
  have hchop : num / width = 2 * num / (2 * width) := (Nat.mul_div_mul_left num width two_pos).symm
  have hle : 2 * num / (2 * width) ≤ (2 * num + width) / (2 * width) := by gcongr; omega
  have hge : (2 * num + width) / (2 * width) ≤ 2 * num / (2 * width) + 1 := by
    rcases Nat.eq_zero_or_pos width with rfl | hw
    · simp
    · rw [← Nat.add_div_right _ (by omega)]; gcongr; omega
  omega

/-! ### The seek time -/

theorem seekTime_of_le_head (r : Rounding) {p : Profile} {q : Nat × Nat} {n : Nat} (hq : p.points.head? = some q)
    (hn : n ≤ q.1) : seekTime p r n = q.2 := by
  obtain ⟨rest, hp⟩ := List.head?_eq_some_iff.mp hq
  simp only [seekTime, hp, if_pos hn]

/-- The bands that end below a distance are passed over. -/
theorem seekBands_past (r : Rounding) {n : Nat} {before : List (Nat × Nat)} {lo : Nat × Nat} (rest : List (Nat × Nat))
    (hb : ∀ q ∈ before, q.1 < n) (hlo : lo.1 < n) (first : Nat × Nat) :
    seekBands r n first (before ++ lo :: rest) = seekBands r n lo rest := by
  induction before generalizing first with
  | nil => simp only [List.nil_append, seekBands, if_neg hlo.not_ge]
  | cons q before ih =>
    obtain ⟨hq, hb⟩ := List.forall_mem_cons.mp hb
    simp only [List.cons_append, seekBands, if_neg hq.not_ge, ih hb]

/-- Past a point of the profile only the points after it count. -/
theorem seekTime_past (r : Rounding) {p : Profile} (hp : p.Rising) {before rest : List (Nat × Nat)} {lo : Nat × Nat} {n : Nat}
    (hsplit : p.points = before ++ lo :: rest) (hn : lo.1 < n) : seekTime p r n = seekBands r n lo rest := by
  have hrises := hp.rises
  rw [hsplit, List.pairwise_append] at hrises
  obtain ⟨-, -, hbefore⟩ := hrises
  have hb : ∀ q ∈ before, q.1 < n := fun q hq => (hbefore q hq lo List.mem_cons_self).1.trans hn
  cases before with
  | nil => simp only [seekTime, hsplit, List.nil_append, if_neg hn.not_ge]
  | cons first before =>
    obtain ⟨hfirst, hb⟩ := List.forall_mem_cons.mp hb
    simp only [seekTime, hsplit, List.cons_append, if_neg hfirst.not_ge, seekBands_past r rest hb hn]

theorem seekTime_in_band (r : Rounding) {p : Profile} (hp : p.Rising) {before after : List (Nat × Nat)} {lo hi : Nat × Nat}
    {n : Nat} (hsplit : p.points = before ++ lo :: hi :: after) (hlo : lo.1 < n) (hhi : n ≤ hi.1) :
    seekTime p r n = interpolate r lo hi n := by
  rw [seekTime_past r hp hsplit hlo, seekBands, if_pos hhi]

theorem Profile.Rising.band {p : Profile} (hp : p.Rising) {before after : List (Nat × Nat)} {lo hi : Nat × Nat}
    (hsplit : p.points = before ++ lo :: hi :: after) : Rises lo hi := by
  have hrises := hp.rises
  rw [hsplit] at hrises
  exact List.pairwise_pair.mp (hrises.sublist (((List.nil_sublist after).cons_cons hi |>.cons_cons lo).trans
    (List.sublist_append_right _ _)))

theorem seekTime_at_point (r : Rounding) {p : Profile} (hp : p.Rising) {q : Nat × Nat} (hq : q ∈ p.points) :
    seekTime p r q.1 = q.2 := by
  obtain ⟨before, after, hsplit⟩ := List.append_of_mem hq
  rcases List.eq_nil_or_concat before with rfl | ⟨before, lo, rfl⟩
  · exact seekTime_of_le_head r (by simp [hsplit]) le_rfl
  · have hsplit : p.points = before ++ lo :: q :: after := by simpa using hsplit
    rw [seekTime_in_band r hp hsplit (hp.band hsplit).1 le_rfl, interpolate_at_end r (hp.band hsplit)]

theorem seekTime_of_last_le (r : Rounding) {p : Profile} (hp : p.Rising) {q : Nat × Nat} {n : Nat}
    (hq : p.points.getLast? = some q) (hn : q.1 ≤ n) : seekTime p r n = q.2 := by
  obtain ⟨before, hsplit⟩ := List.getLast?_eq_some_iff.mp hq
  rcases hn.eq_or_lt with rfl | hn
  · exact seekTime_at_point r hp (by simp [hsplit])
  · rw [seekTime_past r hp hsplit hn, seekBands]

/-- A distance past a point lies in a band behind it or past the last point. -/
theorem exists_band_or_last (n : Nat) (lo : Nat × Nat) (rest : List (Nat × Nat)) (hlo : lo.1 < n) :
    (∃ before a b after, lo :: rest = before ++ a :: b :: after ∧ a.1 < n ∧ n ≤ b.1) ∨
      ∃ q, (lo :: rest).getLast? = some q ∧ q.1 ≤ n := by
  induction rest generalizing lo with
  | nil => exact .inr ⟨lo, rfl, hlo.le⟩
  | cons hi rest ih =>
    rcases Nat.lt_or_ge hi.1 n with hhi | hhi
    · rcases ih hi hhi with ⟨before, a, b, after, hsplit, hband⟩ | ⟨q, hq, hqn⟩
      · exact .inl ⟨lo :: before, a, b, after, by rw [hsplit, List.cons_append], hband⟩
      · exact .inr ⟨q, by rw [List.getLast?_cons_cons, hq], hqn⟩
    · exact .inl ⟨[], lo, hi, rest, rfl, hlo, hhi⟩

/-- What the seek time of a distance can be (R74): the time of a point, whatever the rounding, or an interpolation in a band. -/
theorem seekTime_cases {p : Profile} (hp : p.Rising) (n : Nat) :
    (∃ q ∈ p.points, ∀ r, seekTime p r n = q.2) ∨
      ∃ lo hi, Rises lo hi ∧ hi ∈ p.points ∧ n ≤ hi.1 ∧ ∀ r, seekTime p r n = interpolate r lo hi n := by
  obtain ⟨first, rest, hpoints⟩ := List.exists_cons_of_ne_nil hp.nonempty
  rcases Nat.lt_or_ge first.1 n with hfirst | hfirst
  · rcases exists_band_or_last n first rest hfirst with ⟨before, lo, hi, after, hsplit, hlo, hhi⟩ | ⟨q, hq, hqn⟩
    · have hsplit := hpoints.trans hsplit
      exact .inr ⟨lo, hi, hp.band hsplit, by simp [hsplit], hhi, fun r => seekTime_in_band r hp hsplit hlo hhi⟩
    · rw [← hpoints] at hq
      exact .inl ⟨q, List.mem_of_getLast? hq, fun r => seekTime_of_last_le r hp hq hqn⟩
  · exact .inl ⟨first, by simp [hpoints], fun r => seekTime_of_le_head r (by simp [hpoints]) hfirst⟩

theorem seekTime_le {p : Profile} (hp : p.Rising) (r : Rounding) (n : Nat) : seekTime p r n ≤ 1023 := by
  rcases seekTime_cases hp n with ⟨q, hq, heq⟩ | ⟨lo, hi, hband, hmem, hn, heq⟩
  · exact (heq r).le.trans (hp.le_max q hq)
  · calc seekTime p r n = interpolate r lo hi n := heq r
      _ ≤ interpolate r lo hi hi.1 := interpolate_mono r lo hi hn
      _ = hi.2 := interpolate_at_end r hband
      _ ≤ 1023 := hp.le_max hi hmem

theorem seekTime_rounding {p : Profile} (hp : p.Rising) (n : Nat) :
    seekTime p .chop n ≤ seekTime p .round n ∧ seekTime p .round n ≤ seekTime p .chop n + 1 := by
  rcases seekTime_cases hp n with ⟨q, -, heq⟩ | ⟨lo, hi, -, -, -, heq⟩
  · simp [heq]
  · simpa only [heq] using interpolate_rounding lo hi n

/-! ### The estimate -/

theorem moveTime_eq (p : Profile) (r : Rounding) (src dst : Track) :
    moveTime p r src dst = if src = dst then 0 else if src.cyl = dst.cyl then p.headSwitch
      else seekTime p r (if src.cyl ≤ dst.cyl then dst.cyl - src.cyl else src.cyl - dst.cyl) := by
  have hdistance : (if dst.cyl ≤ src.cyl then src.cyl - dst.cyl else dst.cyl - src.cyl) =
      if src.cyl ≤ dst.cyl then dst.cyl - src.cyl else src.cyl - dst.cyl := by
    split <;> split <;> omega
  rw [moveTime, hdistance]

theorem moveTime_le {p : Profile} (hp : p.Rising) (hh : p.headSwitch ≤ 15) (r : Rounding) (src dst : Track) :
    moveTime p r src dst ≤ 1023 := by
  unfold moveTime
  split
  · omega
  · split
    · omega
    · exact seekTime_le hp r _

theorem waitTime_le (lead move : Nat) (slot : Option Nat) (t : Track) (k : Nat) : waitTime lead move slot t k ≤ 127 := by
  cases slot with
  | none => simp [waitTime]
  | some s0 => simp only [waitTime]; omega

theorem estimate_le {p : Profile} (hp : p.Rising) (hh : p.headSwitch ≤ 15) {st : Settings} (hl : st.lead ≤ 7)
    (src : Track) (slot : Option Nat) (t : Track) (k : Nat) : estimate p st src slot t k ≤ 1157 := by
  have hmove := moveTime_le hp hh st.rounding src t
  have hwait := waitTime_le st.lead (moveTime p st.rounding src t) slot t k
  simp only [estimate]
  omega

/-! ### The score of a request on its drive -/

theorem Drive.type_of_cap {dr : Drive} {c : Capability} {ty : DriveType} (hc : dr.cap = some c)
    (ht : typeOfCode c.code = some ty) : dr.type = ty := by
  simp [Drive.type, hc, ht]

theorem State.ownCopy_of_ne {s : State} {id : Nat} (h : ∀ c, s.copy = some c → c.request ≠ id) : s.ownCopy id = none := by
  unfold State.ownCopy
  split
  · next c hc => rw [if_neg (h c hc)]
  · rfl

theorem State.ownCopy_of_eq {s : State} {c : CopyRecord} (h : s.copy = some c) : s.ownCopy c.request = some c := by
  simp [State.ownCopy, h]

theorem State.requestTrack_of_ne {s : State} {r : Request} (h : ∀ c, s.copy = some c → c.request ≠ r.id) (d : DriveNo) :
    s.requestTrack d r = s.translate d r.next.track := by
  simp only [State.requestTrack, State.ownCopy_of_ne h]

theorem State.requestSector_of_ne {s : State} {r : Request} (h : ∀ c, s.copy = some c → c.request ≠ r.id) :
    s.requestSector r = r.next.sector := by
  simp only [State.requestSector, State.ownCopy_of_ne h]

theorem State.requestTrack_of_copy {s : State} {r : Request} {c : CopyRecord} (hc : s.copy = some c)
    (hr : c.request = r.id) (d : DriveNo) : s.requestTrack d r = s.copyTrack c := by
  simp only [State.requestTrack, ← hr, State.ownCopy_of_eq hc]

theorem State.requestSector_of_copy {s : State} {r : Request} {c : CopyRecord} {k : Nat} (hc : s.copy = some c)
    (hr : c.request = r.id) (hk : SectorSet.lowest (s.copyLeft c) = some k) : s.requestSector r = k := by
  simp only [State.requestSector, ← hr, State.ownCopy_of_eq hc, hk, Option.getD_some]

/-- The next sector of a range (R65 a), by its number in sector order. -/
theorem Request.next_of_range {r : Request} (h : r.kind.wholeTrack = false) :
    r.next = Addr.ofNumber ((r.start.cyl * 12 + r.start.head) * 32 + r.start.sector + r.done) := by
  simp [Request.next, h, Addr.number, Addr.track, Track.number]

theorem Request.next_of_wholeTrack {r : Request} (h : r.kind.wholeTrack = true) : r.next = r.start := by
  simp [Request.next, h]

theorem Addr.ofNumber_track (n : Nat) : (Addr.ofNumber n).track = ⟨n / 384, n / 32 % 12⟩ := by
  simp [Addr.ofNumber, Addr.track, Nat.div_div_eq_div_mul]

/-- What the score of a request is computed from (R72): its drive's profile, place and slot, and its next track and sector. -/
theorem State.score_eq {s : State} {d : DriveNo} {r : Request} {p : Profile} {src t : Track} {k : Nat}
    (hp : s.profile (s.drive d).type = p) (hpos : (s.drive d).pos = some src) (ht : s.requestTrack d r = t)
    (hk : s.requestSector r = k) :
    s.score d r = scoreOf s.settings (estimate p s.settings src (s.drive d).slot t k) r.passes := by
  simp only [State.score, hp, hpos, ht, hk, Option.getD_some]

/-! ### The statement -/

/-- Settles O60: the seek time by the place of the distance among the points, and the score by what it is computed from. -/
theorem estimatesAreBounded : Obligations.EstimatesAreBounded := by
  unfold Obligations.EstimatesAreBounded
  refine ⟨?_, ?_⟩
  · intro p ty st src dst slot k passes hordered hh hl
    have hp : p.Rising := Profile.rising_of_ordered hordered
    refine ⟨?_, estimate_le hp hh hl src slot dst k, Nat.sub_le _ _, fun _ => rfl, fun h => Nat.sub_eq_zero_of_le h,
      fun q hq => seekTime_at_point _ hp hq, fun n q hq hn => seekTime_of_last_le _ hp hq hn,
      seekTime_rounding hp, fun q n hq hn => seekTime_of_le_head _ hq hn, ?_⟩
    · rw [estimate, moveTime_eq]
      cases slot <;> rfl
    · intro before lo hi after n hsplit hlo hhi
      exact ⟨seekTime_in_band .chop hp hsplit hlo hhi, seekTime_in_band .round hp hsplit hlo hhi⟩
  · intro d r ty serial p src s
    dsimp only
    intro hcap hprofile hpos
    have htype : (s.drive d).type = ty := Drive.type_of_cap hcap (by cases ty <;> rfl)
    have hp : s.profile (s.drive d).type = p := by
      rw [htype]
      cases ty <;> simp only at hprofile <;> simp [State.profile, hprofile]
    refine ⟨fun hne => ⟨fun hkind => ?_, fun hkind hsector => ?_⟩,
      fun c k hc hr hd => ⟨fun hphase hk => ?_, fun e hphase he hk => ?_⟩⟩
    · have hnext := Request.next_of_range (r := r) (by rcases hkind with h | h | h | h <;> rw [h] <;> rfl)
      refine State.score_eq hp hpos ?_ ?_
      · rw [State.requestTrack_of_ne hne, hnext, Addr.ofNumber_track]
      · rw [State.requestSector_of_ne hne, hnext, Addr.ofNumber]
    · have hnext := Request.next_of_wholeTrack (r := r) (by rcases hkind with h | h | h <;> rw [h] <;> rfl)
      refine State.score_eq hp hpos ?_ ?_
      · rw [State.requestTrack_of_ne hne, hnext, Addr.track]
      · rw [State.requestSector_of_ne hne, hnext, hsector]
    · refine State.score_eq hp hpos ?_ (State.requestSector_of_copy hc hr ?_)
      · rw [State.requestTrack_of_copy hc hr, State.copyTrack, hphase]
      · rw [State.copyLeft, hphase, hk]
    · subst hd
      refine State.score_eq hp hpos ?_ (State.requestSector_of_copy hc hr ?_)
      · rw [State.requestTrack_of_copy hc hr, State.copyTrack, hphase, htype]
        cases ty <;> rfl
      · rw [State.copyLeft, hphase, State.copyValid, State.validOf, he, hk]

end Sys2Proof.Machine
